-- ==== Sys2Proof/Word.lean ====
section
/-! DEFINITION. The widths of the block's data (00_scope.md rule R8). -/

namespace Sys2Proof

/-- A stream byte (R8). -/
abbrev Byte := BitVec 8

/-- Register data, and a CRC (R8). -/
abbrev Half := BitVec 16

/-- A command word (R8, R70). -/
abbrev CmdWord := BitVec 32

/-- A block bus value (R8, R53). -/
abbrev Bus := BitVec 256

end Sys2Proof
end

