-- ==== Sys2Proof/Config.lean ====
section
/-! DEFINITION. What is fixed when the block is built (00_scope.md rule R6): the constants the spec values, the
types of the OPEN parameters, and the OPEN parameters themselves as one opaque constant. -/

namespace Sys2Proof

/-- CTRL.PROFILE, and the profile bit kept in each latch (R24): bit value 0 is variant A with CRC profile A,
bit value 1 is variant B with CRC profile B. -/
inductive Profile where
  | A
  | B
deriving DecidableEq, Repr, Inhabited

/-- The four label categories, CAT 0 to 3 (R230). -/
inductive LabelCat where
  | alarm
  | protection
  | sysstatus
  | fet
deriving DecidableEq, Repr, Inhabited

/-- The five cell categories, CAT 4 to 8 (R230). -/
inductive CellCat where
  | vlow
  | vhigh
  | tlow
  | thigh
  | bal
deriving DecidableEq, Repr, Inhabited

/-- A category of the alarm decoder (R230). -/
inductive Category where
  | label (c : LabelCat)
  | cell (c : CellCat)
deriving DecidableEq, Repr, Inhabited

/-- The OPEN finite enumeration of labels (R6, R231). DESIGN CHOICE (log 7): ids are numbers, into which every
finite enumeration embeds. -/
abbrev LabelId := Nat

/-- What an alarm map does with one payload byte (R231): all eight bits go to one cell category, or each bit
goes to at most one label. -/
inductive ByteRole where
  | cell (c : CellCat)
  | label (bits : Fin 8 → Option (LabelCat × LabelId))
deriving Inhabited

/-- An alarm map for a payload of `n` bytes (R231). DEDUCED (log 6): one role per payload byte is exactly a
well-formed map, since the cell lists are ascending and disjoint and labels exist only on the other bytes. -/
abbrev AlarmMap (n : Nat) := Fin n → ByteRole

/-- RTYPE_POS_B, one of 0, 2 and 3 (R6, R167). -/
inductive RtypePos where
  | pos0
  | pos2
  | pos3
deriving DecidableEq, Repr, Inhabited

/-- The OPEN parameters of R6 that the block's behaviour depends on. -/
structure Params where
  /-- CRC_TABLE_B (R103). -/
  crcTableB : Byte → Half
  /-- MARKER_B, byte 0 first (R162). -/
  markerB : Vector Byte 4
  /-- MARKER_MASK_B: bit k enables the compare of byte k (R162). -/
  markerMaskB : BitVec 4
  /-- DEV_ORIGIN_B (R163). -/
  devOriginB : Byte
  /-- RTYPE_POS_B (R167). -/
  rtypePosB : RtypePos
  /-- ALARM_MAP_A, for the 18-byte payload (R231). -/
  alarmMapA : AlarmMap 18
  /-- ALARM_MAP_B, for the 26-byte payload (R231). -/
  alarmMapB : AlarmMap 26
deriving Inhabited

namespace Config

/-- The OPEN parameters of the block as built: nothing in the model knows their values (R6, log 5). -/
opaque params : Params

/-- CAP_A, the rolling buffer's capacity (R6). -/
def capA : Nat := 100

/-- MIN_HDR_A, the fill at which the header is tested (R6). -/
def minHdrA : Nat := 5

/-- BLK_B, the variant B block size in bytes (R6). -/
def blkB : Nat := 32

/-- HDR_LEN_A, header bytes of variant A (R6). -/
def hdrLenA : Nat := 3

/-- HDR_LEN_B, header bytes of variant B (R6). -/
def hdrLenB : Nat := 4

/-- CRC_SEED (R6). -/
def crcSeed : Half := 0xFFFF

/-- DEV_ORIGIN_A (R6, R136). -/
def devOriginA : Byte := 1

end Config

end Sys2Proof
end

