-- ==== Sys2Proof/Syntax.lean ====
section
/-! DEFINITION. The block's eight commands, one constructor per row of spec/opcode_table.json (30_encoding.md R72). -/

namespace Sys2Proof

/-- A well-encoded command. Operands are the unsigned fields exactly as they stand in the word (R71); PUSHBLK's
block comes on the block bus, not in the word (R70). -/
inductive Instr where
  /-- R250. -/
  | nop
  /-- R251. -/
  | srst
  /-- R130: DATA8. -/
  | pushb (data : Byte)
  /-- R160. -/
  | pushblk
  /-- R255: ADDR and IMM16. -/
  | wrcfg (addr : BitVec 8) (imm : Half)
  /-- R253: ADDR. -/
  | rdreg (addr : BitVec 8)
  /-- R105. -/
  | crcclr
  /-- R106: DATA8. -/
  | crcb (data : Byte)
deriving DecidableEq, Repr

end Sys2Proof
end

