-- ==== Sys2Proof/Assembly.lean ====
section
/-! DEFINITION. The names of the registers (10_state.md R23) and the lines of the spec's assembly (30_encoding.md R76, R77),
as data: comments and number spellings are notation and are not kept. -/

namespace Sys2Proof

/-- A mapped register by its name (R23). -/
inductive Reg where
  | ctrl
  | devcnt
  | catsel
  | status
  | lastfrm
  | lastlen
  | crcCalc
  | crcRecv
  | crcAcc
  | almstat
  | almout (k : Fin 16)
  | frame (k : Fin 29)
deriving DecidableEq, Repr

/-- A register operand as written: a name, or a raw 8-bit address (R76). -/
inductive RegOperand where
  | named (r : Reg)
  | raw (a : Nat)
deriving DecidableEq, Repr

/-- One assembly line, its numbers as written (R76), the pseudo-instructions of R77 among them. -/
inductive AsmLine where
  | nop
  | srst
  | pushb (b : Nat)
  | pushblk (bs : List Nat)
  | wrcfg (r : RegOperand) (imm : Nat)
  | rdreg (r : RegOperand)
  | crcclr
  | crcb (b : Nat)
  | word (v : Nat)
  | pushs (bs : List Nat)
  | crcs (bs : List Nat)
  | setprof (p : Profile)
  | setdev (n : Nat)
  | selcat (c : Nat)
deriving DecidableEq, Repr

end Sys2Proof
end

