-- ==== Sys2Proof/WellFormed.lean ====
section
/-! DEFINITION. Well-formedness: of commands, of assembly lines (30_encoding.md R70, R71, R76, R77), and of an alarm map
written in the spec's own form of lists and labels (44_alarm_decoder.md R231). -/

namespace Sys2Proof

/-- R71: each operand is an unsigned field of the word, and its width is its type's, so every command can be
encoded; the must-be-zero fields are not operands. -/
def Instr.wellFormed : Instr → Bool
  | .nop => true
  | .srst => true
  | .pushb _ => true
  | .pushblk => true
  | .wrcfg _ _ => true
  | .rdreg _ => true
  | .crcclr => true
  | .crcb _ => true

/-- A raw register address is 8 bits (R76). -/
def RegOperand.wellFormed : RegOperand → Bool
  | .named _ => true
  | .raw a => a < 256

/-- A written byte (R76). -/
def isByte (b : Nat) : Bool := b < 256

/-- R76 and R77: each number fits its operand, PUSHBLK has its 32 bytes, and PUSHS and CRCS name at least `b0`. -/
def AsmLine.wellFormed : AsmLine → Bool
  | .nop => true
  | .srst => true
  | .pushb b => isByte b
  | .pushblk bs => bs.length == 32 && bs.all isByte
  | .wrcfg r imm => r.wellFormed && imm < 65536
  | .rdreg r => r.wellFormed
  | .crcclr => true
  | .crcb b => isByte b
  | .word v => v < 4294967296
  | .pushs bs => !bs.isEmpty && bs.all isByte
  | .crcs bs => !bs.isEmpty && bs.all isByte
  | .setprof _ => true
  | .setdev n => n ≤ 255
  | .selcat c => c ≤ 15

/-- An alarm map as R231 writes it: a list of payload offsets per cell category, and a label per payload bit. -/
structure MapForm where
  cells : CellCat → List Nat
  label : Nat → Nat → Option (LabelCat × LabelId)

/-- The five cell categories, in the order of R230. -/
def cellCats : List CellCat := [.vlow, .vhigh, .tlow, .thigh, .bal]

/-- R231: a map for `n` payload bytes is well formed when the five cell lists are pairwise disjoint, every offset
is below `n`, and every list is strictly ascending. -/
def MapForm.wellFormed (n : Nat) (F : MapForm) : Bool :=
  cellCats.all (fun c => (F.cells c).all (· < n) && decide ((F.cells c).Pairwise (· < ·))) &&
  cellCats.all (fun c => cellCats.all fun d => c == d || (F.cells c).all fun j => !(F.cells d).contains j)

/-- The map with the given lists and labels: a listed byte is a cell byte, every other byte a label byte (R231). -/
def MapForm.toMap (n : Nat) (F : MapForm) : AlarmMap n := fun j =>
  match cellCats.find? fun c => (F.cells c).contains j.val with
  | some c => .cell c
  | none => .label fun i => F.label j.val i.val

end Sys2Proof
end

