-- ==== Sys2Proof/Decode.lean ====
section
/-! DEFINITION. The decoder, total on every 32-bit word and rejecting by name, and the encoder (30_encoding.md R70 to R74). -/

namespace Sys2Proof

/-- OP, bits 31:28 (R70). -/
def opField (w : CmdWord) : BitVec 4 := w.extractLsb' 28 4

/-- RSV, bits 27:24 (R70). -/
def rsvField (w : CmdWord) : BitVec 4 := w.extractLsb' 24 4

/-- ADDR, bits 23:16 (R70). -/
def addrField (w : CmdWord) : BitVec 8 := w.extractLsb' 16 8

/-- IMM16, bits 15:0 (R70). -/
def immField (w : CmdWord) : Half := w.extractLsb' 0 16

/-- DATA8, bits 7:0 (R71). -/
def dataField (w : CmdWord) : Byte := w.extractLsb' 0 8

/-- One row of the opcode map (R72), with the operands its format takes from the word (R71). -/
structure OpcodeRow where
  mnemonic : String
  pattern : CmdWord
  mask : CmdWord
  operands : CmdWord → Instr

/-- The opcode map (R72). -/
def opcodeRows : List OpcodeRow :=
  [ ⟨"NOP", 0x00000000, 0xFFFFFFFF, fun _ => .nop⟩,
    ⟨"SRST", 0x10000000, 0xFFFFFFFF, fun _ => .srst⟩,
    ⟨"PUSHB", 0x20000000, 0xFFFFFF00, fun w => .pushb (dataField w)⟩,
    ⟨"PUSHBLK", 0x30000000, 0xFFFFFFFF, fun _ => .pushblk⟩,
    ⟨"WRCFG", 0x40000000, 0xFF000000, fun w => .wrcfg (addrField w) (immField w)⟩,
    ⟨"RDREG", 0x50000000, 0xFF00FFFF, fun w => .rdreg (addrField w)⟩,
    ⟨"CRCCLR", 0x60000000, 0xFFFFFFFF, fun _ => .crcclr⟩,
    ⟨"CRCB", 0x70000000, 0xFFFFFF00, fun w => .crcb (dataField w)⟩ ]

/-- A word encodes a row's command exactly when its masked bits are the row's pattern (R72). -/
def OpcodeRow.accepts (r : OpcodeRow) (w : CmdWord) : Bool := w &&& r.mask == r.pattern

/-- Why a word is `Illegal` (R74). -/
inductive IllegalWord where
  /-- OP is 0x8 to 0xF. -/
  | reservedOpcode
  /-- OP is 0x0 to 0x7 and RSV is not zero. -/
  | reservedBits
  /-- OP is 0x0 to 0x7, RSV is zero, and a must-be-zero bit of the format is not. -/
  | nonzeroField
deriving DecidableEq, Repr

/-- The reason a word that no row accepts is illegal (R74). -/
def illegalReason (w : CmdWord) : IllegalWord :=
  if 8 ≤ (opField w).toNat then .reservedOpcode
  else if rsvField w ≠ 0 then .reservedBits
  else .nonzeroField

/-- R73: the row that accepts the word gives the command; a word that no row accepts is illegal. -/
def decode (w : CmdWord) : Except IllegalWord Instr :=
  match opcodeRows.find? (·.accepts w) with
  | some r => .ok (r.operands w)
  | none => .error (illegalReason w)

/-- The word with the given fields and RSV = 0 (R70). -/
def fieldsWord (op : BitVec 4) (addr : BitVec 8) (imm : Half) : CmdWord := op ++ (0 : BitVec 4) ++ addr ++ imm

/-- The command word of a command (R70, R71, R72): OP from the opcode map, operands in their fields, zero elsewhere. -/
def encode : Instr → CmdWord
  | .nop => fieldsWord 0x0 0 0
  | .srst => fieldsWord 0x1 0 0
  | .pushb b => fieldsWord 0x2 0 (b.setWidth 16)
  | .pushblk => fieldsWord 0x3 0 0
  | .wrcfg a v => fieldsWord 0x4 a v
  | .rdreg a => fieldsWord 0x5 a 0
  | .crcclr => fieldsWord 0x6 0 0
  | .crcb b => fieldsWord 0x7 0 (b.setWidth 16)

/-- The command read from a word of the opcode table's numbering: every row is one whole 32-bit word (R70), and
bits above `nbits` are zero. -/
def decodeTableWord (nbits w : Nat) : Option Instr :=
  if nbits ≤ 32 then (decode (BitVec.ofNat 32 (w % 2 ^ nbits))).toOption else none

end Sys2Proof
end

