-- ==== Sys2Proof/Machine/State.lean ====
section
/-! DEFINITION. The block's state (10_state.md R20), its ports as plain data, and the state after reset (R42). -/

namespace Sys2Proof.Machine

/-- An event with the info its code records (60_exceptions.md R260, R261). -/
inductive Event where
  /-- 0x1: a candidate frame was accepted (R207). -/
  | frameOk (dev : Byte) (rtype : Byte) (f : List Byte)
  /-- 0x2: variant A header mismatch, one byte dropped (R134). -/
  | hdrDrop
  /-- 0x3: variant A unresolvable length code, one byte dropped (R135). -/
  | lenZero
  /-- 0x4: the computed CRC is not the trailer (R202). -/
  | crcErr (calculated received : Half)
  /-- 0x5: device index outside 0 .. DEVICE_COUNT-1 (R160, R203). -/
  | devRange (dev : Int)
  /-- 0x6: variant B marker mismatch, block discarded (R160). -/
  | blkReject
  /-- 0x7: variant A buffer over capacity, oldest byte dropped (R133). -/
  | evict
  /-- 0x8: reserved opcode or nonzero must-be-zero field (R74). -/
  | illegalCmd (w : CmdWord)
  /-- 0x9: PUSHB under PROFILE = 1 or PUSHBLK under PROFILE = 0 (R131, R161). -/
  | wrongProfile (w : CmdWord)
  /-- 0xA: an access that the register map does not allow (R254). -/
  | badReg (a : BitVec 8)
deriving DecidableEq, Repr

/-- What the outside world presents to the block: a command word with its block bus value (R9, R70), or a level
of the hardware reset input (R280). -/
inductive HostInput where
  | command (w : CmdWord) (blk : Bus)
  | resetLine (asserted : Bool)
deriving DecidableEq, Repr

/-- The frame latch (R37). -/
structure FrameLatch where
  bytes : Vector Byte 57
  len : BitVec 8
  dev : Byte
  rtype : Byte
  prof : Profile
  valid : Bool
deriving DecidableEq, Repr

/-- The alarm latch (R38). -/
structure AlarmLatch where
  p : Vector Byte 26
  plen : BitVec 8
  dev : Byte
  prof : Profile
  valid : Bool
deriving DecidableEq, Repr

/-- The state tuple of R20, then the block's ports (log 1 to 4). -/
@[ext]
structure State where
  /-- PROFILE (R24). -/
  profile : Profile
  /-- DEVICE_COUNT (R25). -/
  deviceCount : BitVec 8
  /-- CAT (R26). -/
  cat : BitVec 4
  /-- The rolling buffer, byte 0 the oldest (R36). -/
  buf : List Byte
  /-- The frame latch (R37). -/
  frm : FrameLatch
  /-- The alarm latch (R38). -/
  alm : AlarmLatch
  /-- CRC_CALC (R30). -/
  crcCalc : Half
  /-- CRC_RECV (R31). -/
  crcRecv : Half
  /-- CRC_ACC (R32). -/
  crcAcc : Half
  /-- LAST_EVT (R39). -/
  lastEvt : BitVec 4
  /-- Port: what the host will present next, oldest first. DESIGN CHOICE (log 1). -/
  inputs : List HostInput
  /-- Port: whether the reset input is asserted (R280, log 4). -/
  resetLine : Bool
  /-- Port: the block bus value of the command (R70, log 3). -/
  bus : Bus
  /-- Port: the read data the last command gave (R9, log 2). -/
  rdata : Half
  /-- Port: the events the last command gave, in emission order (R260, log 2). -/
  events : List Event
deriving DecidableEq, Repr

/-- The block has no fault state and no stuck state (60_exceptions.md R262), so no fault exists. -/
inductive Fault where
deriving DecidableEq, Repr

/-- The block refuses no command (00_scope.md R9, 60_exceptions.md R262). -/
inductive Refusal where
  /-- Raised by no arm of exec: every command has its meaning. It is the host's name for a command without one,
  and would be safe, since it stops. -/
  | notModelled (mnemonic : String)
deriving DecidableEq, Repr

/-- The frame latch cleared (R37, R42). -/
def FrameLatch.cleared : FrameLatch :=
  { bytes := Vector.replicate 57 0, len := 0, dev := 0, rtype := 0, prof := .A, valid := false }

/-- The alarm latch cleared (R38, R42). -/
def AlarmLatch.cleared : AlarmLatch :=
  { p := Vector.replicate 26 0, plen := 0, dev := 0, prof := .A, valid := false }

/-- The state after hardware reset: the table of R42, no command presented yet, and the outputs idle (log 1 to 4). -/
def State.reset : State :=
  { profile := .A
    deviceCount := 0
    cat := 0
    buf := []
    frm := .cleared
    alm := .cleared
    crcCalc := 0x0000
    crcRecv := 0x0000
    crcAcc := 0xFFFF
    lastEvt := 0
    inputs := []
    resetLine := false
    bus := 0
    rdata := 0x0000
    events := [] }

end Sys2Proof.Machine
end

