-- ==== Sys2Proof/Machine/Ops.lean ====
section
/-! DEFINITION. The named operations on the state: one update per field, the output primitives of 00_scope.md R13, and
the reset input. The block takes no exception (60_exceptions.md R262, R266, R267): an event is an output, so `emit`
is the one shared operation that stands where another machine has its exception entry, and no return exists. -/

namespace Sys2Proof.Machine

/-- PROFILE <- p. -/
def State.setProfile (s : State) (p : Profile) : State := { s with profile := p }

/-- DEVICE_COUNT <- n. -/
def State.setDeviceCount (s : State) (n : BitVec 8) : State := { s with deviceCount := n }

/-- CAT <- c. -/
def State.setCat (s : State) (c : BitVec 4) : State := { s with cat := c }

/-- buf <- b. -/
def State.setBuf (s : State) (b : List Byte) : State := { s with buf := b }

/-- The whole frame latch is written together (R37). -/
def State.setFrm (s : State) (l : FrameLatch) : State := { s with frm := l }

/-- The whole alarm latch is written together (R38). -/
def State.setAlm (s : State) (l : AlarmLatch) : State := { s with alm := l }

/-- CRC_CALC <- calc and CRC_RECV <- recv (R202). -/
def State.setCrcCheck (s : State) (calculated received : Half) : State :=
  { s with crcCalc := calculated, crcRecv := received }

/-- CRC_ACC <- v. -/
def State.setCrcAcc (s : State) (v : Half) : State := { s with crcAcc := v }

/-- LAST_EVT <- c. -/
def State.setLastEvt (s : State) (c : BitVec 4) : State := { s with lastEvt := c }

/-- The inputs still to come. -/
def State.setInputs (s : State) (l : List HostInput) : State := { s with inputs := l }

/-- The level of the reset input. -/
def State.setResetLine (s : State) (v : Bool) : State := { s with resetLine := v }

/-- The value on the block bus. -/
def State.setBus (s : State) (b : Bus) : State := { s with bus := b }

/-- rdata <- v (R13). -/
def State.setRdata (s : State) (v : Half) : State := { s with rdata := v }

/-- The command's event list. -/
def State.setEvents (s : State) (l : List Event) : State := { s with events := l }

/-- emit E: append the event to the command's event list, in program order (R13). -/
def State.emit (s : State) (e : Event) : State := s.setEvents (s.events ++ [e])

/-- A command starts with no events and rdata = 0 (R259). -/
def State.openOutput (s : State) : State := (s.setRdata 0).setEvents []

/-- The state when hardware reset is released: R42's, with the inputs still to come (R280). -/
def State.releaseReset (s : State) : State := State.reset.setInputs s.inputs

end Sys2Proof.Machine
end

