-- ==== Sys2Proof/Machine/Flags.lean ====
section
/-! DEFINITION. Event codes, the LAST_EVT rule, and the STATUS word with the two flags (10_state.md R27, R39, R40; 60_exceptions.md
R261). FRM_VALID and ALM_VALID themselves are written with their latches (R207, R234). -/

namespace Sys2Proof.Machine

/-- The code of an event (R261). -/
def Event.code : Event → BitVec 4
  | .frameOk _ _ _ => 0x1
  | .hdrDrop => 0x2
  | .lenZero => 0x3
  | .crcErr _ _ => 0x4
  | .devRange _ => 0x5
  | .blkReject => 0x6
  | .evict => 0x7
  | .illegalCmd _ => 0x8
  | .wrongProfile _ => 0x9
  | .badReg _ => 0xA

/-- A command that emitted events leaves the code of the last one in LAST_EVT; one that emitted none leaves
LAST_EVT as it is (R39, R259). -/
def State.closeOutput (s : State) : State :=
  match s.events.getLast? with
  | some e => s.setLastEvt e.code
  | none => s

/-- One command, as R259 frames it: outputs cleared, the command's own effect, then LAST_EVT. It always gives a
next state (R9). -/
def runCommand (effect : State → State) (s : State) : Host.Outcome State Fault Refusal :=
  .next (effect s.openOutput).closeOutput

/-- The bit a profile is read as (R24). -/
def profileBit : Profile → BitVec 1
  | .A => 0
  | .B => 1

/-- The profile a bit selects (R24). -/
def profileOfBit (b : Bool) : Profile := if b then .B else .A

/-- STATUS: `{zext_8(len(buf)), LAST_EVT, 0b00, ALM_VALID, FRM_VALID}` (R27). -/
def statusWord (s : State) : Half :=
  BitVec.ofNat 8 s.buf.length ++ s.lastEvt ++ (0 : BitVec 2) ++ BitVec.ofBool s.alm.valid ++
    BitVec.ofBool s.frm.valid

end Sys2Proof.Machine
end

