-- ==== Sys2Proof/Machine/Operands.lean ====
section
/-! DEFINITION. The operand forms: the block bus as bytes, and two bytes as one 16-bit value, the low byte first. The
operands inside a command word are fields of the instruction (30_encoding.md R71, Decode.lean). -/

namespace Sys2Proof.Machine

/-- Block byte k is `BLK[8k+7:8k]` (R53). -/
def busByte (blk : Bus) (k : Nat) : Byte := blk.extractLsb' (8 * k) 8

/-- The 32 bytes of a block, in stream order (R53, R160). -/
def busBytes (blk : Bus) : List Byte := (List.range Config.blkB).map (busByte blk)

/-- A 16-bit value from its low and its high byte (R52, R54). -/
def le16 (lo hi : Byte) : Half := hi ++ lo

/-- Byte i of a frame; a frame handed to the validator always has it (log 10). -/
def frameAt (f : List Byte) (i : Nat) : Byte := f.getD i 0

end Sys2Proof.Machine
end

