-- ==== Sys2Proof/Machine/Crc.lean ====
section
/-! DEFINITION. The CRC engine and its commands CRCCLR and CRCB (40_crc_engine.md). -/

namespace Sys2Proof.Machine

/-- One step of the generation of CRC_TABLE_A (R101). -/
def crcBitStep (c : Half) : Half := (c >>> 1) ^^^ (if c.getLsbD 0 then 0xA001 else 0x0000)

/-- Eight such steps. -/
def crcEightBitSteps (c : Half) : Half := Nat.repeat crcBitStep 8 c

/-- CRC_TABLE_A: entry n is eight steps from `c = n` (R101). The spec marks the table general knowledge (log 8). -/
def crcTableA (n : Byte) : Half := crcEightBitSteps (n.setWidth 16)

/-- TBL(p) (R104). -/
def crcTable (P : Params) : Profile → Byte → Half
  | .A => crcTableA
  | .B => P.crcTableB

/-- One update: `(acc >> 8) ^ T[(acc ^ zext_16(b)) & 0x00FF]` (R100). -/
def crcUpdate (T : Byte → Half) (acc : Half) (b : Byte) : Half :=
  (acc >>> 8) ^^^ T ((acc ^^^ b.setWidth 16).extractLsb' 0 8)

/-- crc(T, s) (R100). -/
def crc (T : Byte → Half) (bytes : List Byte) : Half := bytes.foldl (crcUpdate T) Config.crcSeed

/-- CRC_ACC <- 0xFFFF (R105). -/
def crcClear (s : State) : State := s.setCrcAcc Config.crcSeed

/-- One byte into CRC_ACC by the table of the PROFILE now selected (R106). -/
def crcFeed (P : Params) (b : Byte) (s : State) : State :=
  s.setCrcAcc (crcUpdate (crcTable P s.profile) s.crcAcc b)

/-- CRCCLR (R105). -/
def execCrcclr (s : State) : Host.Outcome State Fault Refusal := runCommand crcClear s

/-- CRCB (R106). -/
def execCrcb (b : Byte) (s : State) : Host.Outcome State Fault Refusal := runCommand (crcFeed Config.params b) s

end Sys2Proof.Machine
end

