-- ==== Sys2Proof/Machine/Alarm.lean ====
section
/-! DEFINITION. The bitmask alarm decoder: map, rank sequences, latch, category vectors and multiplexer (44_alarm_decoder.md). -/

namespace Sys2Proof.Machine

/-- CAT's numbering of the categories; 9 to 15 select none (R230, R26). -/
def categoryOf (cat : BitVec 4) : Option Category :=
  match cat.toNat with
  | 0 => some (.label .alarm)
  | 1 => some (.label .protection)
  | 2 => some (.label .sysstatus)
  | 3 => some (.label .fet)
  | 4 => some (.cell .vlow)
  | 5 => some (.cell .vhigh)
  | 6 => some (.cell .tlow)
  | 7 => some (.cell .thigh)
  | 8 => some (.cell .bal)
  | _ => none

/-- Whether payload byte j gives its bits to cell category c. -/
def inCells {n : Nat} (M : AlarmMap n) (c : CellCat) (j : Nat) : Bool :=
  if h : j < n then
    match M ⟨j, h⟩ with
    | .cell d => d == c
    | .label _ => false
  else false

/-- M.cells[c]: the payload offsets of cell category c, ascending (R231). -/
def mapCells {n : Nat} (M : AlarmMap n) (c : CellCat) : List Nat := (List.range n).filter (inCells M c)

/-- M.label(j, i): the label of bit i of payload byte j; a cell byte has none (R231). -/
def mapLabel {n : Nat} (M : AlarmMap n) (j i : Nat) : Option (LabelCat × LabelId) :=
  if h : j < n ∧ i < 8 then
    match M ⟨j, h.1⟩ with
    | .cell _ => none
    | .label bits => bits ⟨i, h.2⟩
  else none

/-- The eight bit positions of a payload byte, bit 0 first. -/
def byteBits (j : Nat) : List (Nat × Nat) := (List.range 8).map fun i => (j, i)

/-- Whether a payload bit carries a label of category c. -/
def inLabels {n : Nat} (M : AlarmMap n) (c : LabelCat) (pos : Nat × Nat) : Bool :=
  match mapLabel M pos.1 pos.2 with
  | some (d, _) => d == c
  | none => false

/-- S_c, the rank sequence of a category (R232): labels in bit-scan order; cells byte by byte as listed. -/
def ranks {n : Nat} (M : AlarmMap n) : Category → List (Nat × Nat)
  | .label c => ((List.range n).flatMap byteBits).filter (inLabels M c)
  | .cell c => (mapCells M c).flatMap byteBits

/-- S_c under the map of a profile (R235). -/
def profileRanks (P : Params) : Profile → Category → List (Nat × Nat)
  | .A, c => ranks P.alarmMapA c
  | .B, c => ranks P.alarmMapB c

/-- ALM_P[j][i]. -/
def payloadBit (p : Vector Byte 26) (pos : Nat × Nat) : Bool := (p[pos.1]?.getD 0).getLsbD pos.2

/-- A bit list as a number, rank 0 in bit 0. -/
def bitsToNat : List Bool → Nat
  | [] => 0
  | b :: rest => b.toNat + 2 * bitsToNat rest

/-- V_c: rank r of category c in bit r; all zero while ALM_VALID = 0 (R235). -/
def categoryVector (P : Params) (a : AlarmLatch) (c : Category) : BitVec 256 :=
  if a.valid then BitVec.ofNat 256 (bitsToNat ((profileRanks P a.prof c).map (payloadBit a.p))) else 0

/-- OUT, the multiplexed output (R236). -/
def alarmOut (P : Params) (s : State) : BitVec 256 :=
  match categoryOf s.cat with
  | some c => categoryVector P s.alm c
  | none => 0

/-- The number of 1 bits in the low `n` bits. -/
def countOnes (v : BitVec 256) : Nat → Nat
  | 0 => 0
  | n + 1 => (v.getLsbD n).toNat + countOnes v n

/-- SEL_COUNT, popcount(OUT) (R33, R236). -/
def selCount (P : Params) (s : State) : Nat := countOnes (alarmOut P s) 256

/-- The header length of a profile's frames (R234). -/
def headerLen : Profile → Nat
  | .A => Config.hdrLenA
  | .B => Config.hdrLenB

/-- The payload: the frame without its header and its CRC trailer, `f[h .. len(f)-3]` (R234). -/
def framePayload (f : List Byte) (prof : Profile) : List Byte := (f.take (f.length - 2)).drop (headerLen prof)

/-- alarm_latch(f, prof, dev) (R234). -/
def alarmLatch (f : List Byte) (prof : Profile) (dev : Byte) (s : State) : State :=
  let p := framePayload f prof
  s.setAlm
    { p := Vector.ofFn fun k => p.getD k.val 0
      plen := BitVec.ofNat 8 p.length
      dev := dev
      prof := prof
      valid := true }

end Sys2Proof.Machine
end

