-- ==== Sys2Proof/Machine/Registers.lean ====
section
/-! DEFINITION. The register map, RegRead and RegWrite (10_state.md R23 to R35, R43; 45_host_commands.md R252, R256). -/

namespace Sys2Proof.Machine

/-- The mapped register at an address, or none (R23). -/
def regAt (a : BitVec 8) : Option Reg :=
  if almout : 0x20 ≤ a.toNat ∧ a.toNat ≤ 0x2F then some (.almout ⟨a.toNat - 0x20, by omega⟩)
  else if frame : 0x40 ≤ a.toNat ∧ a.toNat ≤ 0x5C then some (.frame ⟨a.toNat - 0x40, by omega⟩)
  else
    match a.toNat with
    | 0x00 => some .ctrl
    | 0x01 => some .devcnt
    | 0x02 => some .catsel
    | 0x08 => some .status
    | 0x09 => some .lastfrm
    | 0x0A => some .lastlen
    | 0x0B => some .crcCalc
    | 0x0C => some .crcRecv
    | 0x0D => some .crcAcc
    | 0x0E => some .almstat
    | _ => none

/-- The address of a register (R23). -/
def regAddr : Reg → BitVec 8
  | .ctrl => 0x00
  | .devcnt => 0x01
  | .catsel => 0x02
  | .status => 0x08
  | .lastfrm => 0x09
  | .lastlen => 0x0A
  | .crcCalc => 0x0B
  | .crcRecv => 0x0C
  | .crcAcc => 0x0D
  | .almstat => 0x0E
  | .almout k => BitVec.ofNat 8 (0x20 + k.val)
  | .frame k => BitVec.ofNat 8 (0x40 + k.val)

/-- B(x): byte x of the latched frame, 0x00 at or beyond FRM_LEN (R35, R252). -/
def latchByte (s : State) (x : Nat) : Byte := if x < s.frm.len.toNat then s.frm.bytes[x]?.getD 0 else 0

/-- RegRead (R252). -/
def regRead (P : Params) (s : State) : Reg → Half
  | .ctrl => (profileBit s.profile).setWidth 16
  | .devcnt => s.deviceCount.setWidth 16
  | .catsel => s.cat.setWidth 16
  | .status => statusWord s
  | .lastfrm => s.frm.rtype ++ s.frm.dev
  | .lastlen => (0 : BitVec 7) ++ profileBit s.frm.prof ++ s.frm.len
  | .crcCalc => s.crcCalc
  | .crcRecv => s.crcRecv
  | .crcAcc => s.crcAcc
  | .almstat => BitVec.ofNat 8 (selCount P s) ++ s.alm.dev
  | .almout k => (alarmOut P s).extractLsb' (16 * k.val) 16
  | .frame k => le16 (latchByte s (2 * k.val)) (latchByte s (2 * k.val + 1))

/-- A write of CTRL: only bit 0 is stored, and a changed PROFILE empties buf (R256, R257, R43). -/
def writeCtrl (v : Half) (s : State) : State :=
  let newp := profileOfBit (v.getLsbD 0)
  (if newp ≠ s.profile then s.setBuf [] else s).setProfile newp

/-- RegWrite on the RW registers; none for a register that cannot be written (R254, R256). -/
def regWrite (r : Reg) (v : Half) (s : State) : Option State :=
  match r with
  | .ctrl => some (writeCtrl v s)
  | .devcnt => some (s.setDeviceCount (v.setWidth 8))
  | .catsel => some (s.setCat (v.setWidth 4))
  | .status => none
  | .lastfrm => none
  | .lastlen => none
  | .crcCalc => none
  | .crcRecv => none
  | .crcAcc => none
  | .almstat => none
  | .almout _ => none
  | .frame _ => none

end Sys2Proof.Machine
end

