-- ==== Sys2Proof/Machine/HostCommands.lean ====
section
/-! DEFINITION. The host commands NOP, SRST, WRCFG and RDREG (45_host_commands.md), and what an illegal word does (30_encoding.md R74). -/

namespace Sys2Proof.Machine

/-- NOP does nothing (R250). -/
def noEffect (s : State) : State := s

/-- SRST's own effect: every datapath field to its reset value, the configuration registers kept (R251). -/
def softReset (s : State) : State :=
  let s1 := ((s.setBuf []).setFrm .cleared).setAlm .cleared
  ((s1.setCrcCheck 0x0000 0x0000).setCrcAcc Config.crcSeed).setLastEvt 0

/-- WRCFG's own effect (R255): a write of a RW register, BAD_REG for any other address (R254). -/
def writeConfig (a : BitVec 8) (v : Half) (s : State) : State :=
  match (regAt a).bind fun r => regWrite r v s with
  | some t => t
  | none => s.emit (.badReg a)

/-- RDREG's own effect (R253): the value of a mapped register, else 0 and BAD_REG (R254). -/
def readRegister (P : Params) (a : BitVec 8) (s : State) : State :=
  match regAt a with
  | some r => s.setRdata (regRead P s r)
  | none => (s.setRdata 0x0000).emit (.badReg a)

/-- An illegal word's effect: ILLEGAL_CMD(w) and nothing else (R74). -/
def illegalCommand (w : CmdWord) (s : State) : State := s.emit (.illegalCmd w)

/-- NOP (R250). -/
def execNop (s : State) : Host.Outcome State Fault Refusal := runCommand noEffect s

/-- SRST (R251). -/
def execSrst (s : State) : Host.Outcome State Fault Refusal := runCommand softReset s

/-- WRCFG (R255). -/
def execWrcfg (a : BitVec 8) (v : Half) (s : State) : Host.Outcome State Fault Refusal := runCommand (writeConfig a v) s

/-- RDREG (R253). -/
def execRdreg (a : BitVec 8) (s : State) : Host.Outcome State Fault Refusal := runCommand (readRegister Config.params a) s

/-- An illegal word (R74): a next state, since the block refuses no word (R9). -/
def execIllegal (w : CmdWord) (s : State) : Host.Outcome State Fault Refusal := runCommand (illegalCommand w) s

end Sys2Proof.Machine
end

