-- ==== Sys2Proof/Machine/Validator.lean ====
section
/-! DEFINITION. The frame validator and frame acceptance (43_validator.md). -/

namespace Sys2Proof.Machine

/-- The position of the record-type byte: 2 in variant A, RTYPE_POS_B in variant B (R206). -/
def rtypePos (P : Params) : Profile → Nat
  | .A => 2
  | .B =>
    match P.rtypePosB with
    | .pos0 => 0
    | .pos2 => 2
    | .pos3 => 3

/-- rtype(f, prof) (R206). -/
def frameRtype (P : Params) (f : List Byte) (prof : Profile) : Byte := frameAt f (rtypePos P prof)

/-- devidx(f, prof), a signed integer without wrap-around (R203, R163). -/
def deviceIndex (P : Params) (f : List Byte) : Profile → Int
  | .A => (frameAt f 0).toNat - Config.devOriginA.toNat
  | .B => (frameAt f 1).toNat - P.devOriginB.toNat

/-- `0 <= dev < DEVICE_COUNT` (R203). -/
def devInRange (dev : Int) (s : State) : Bool := 0 ≤ dev && dev < s.deviceCount.toNat

/-- The record type of the alarm record (R207). -/
def alarmRtype : Byte := 0x12

/-- The calculated CRC: over every byte but the last two (R201). -/
def frameCrc (P : Params) (f : List Byte) (prof : Profile) : Half := crc (crcTable P prof) (f.take (f.length - 2))

/-- The received CRC: the little-endian trailer (R52, R200). -/
def frameTrailer (f : List Byte) : Half := le16 (frameAt f (f.length - 2)) (frameAt f (f.length - 1))

/-- The frame latch of an accepted frame (R207). -/
def latchedFrame (P : Params) (f : List Byte) (prof : Profile) (dev : Byte) : FrameLatch :=
  { bytes := Vector.ofFn fun k => f.getD k.val 0
    len := BitVec.ofNat 8 f.length
    dev := dev
    rtype := frameRtype P f prof
    prof := prof
    valid := true }

/-- accept(f, prof, dev) (R207). -/
def accept (P : Params) (f : List Byte) (prof : Profile) (dev : Byte) (s : State) : State :=
  let s1 := s.setFrm (latchedFrame P f prof dev)
  let s2 := if frameRtype P f prof = alarmRtype then alarmLatch f prof dev s1 else s1
  s2.emit (.frameOk dev (frameRtype P f prof) f)

/-- validate(f, prof) (R200): the CRC first, then the device range. An index in range fits FRM_DEV (R163, log 11). -/
def validate (P : Params) (f : List Byte) (prof : Profile) (s : State) : State :=
  let calculated := frameCrc P f prof
  let received := frameTrailer f
  let s1 := s.setCrcCheck calculated received
  if calculated ≠ received then s1.emit (.crcErr calculated received)
  else
    let dev := deviceIndex P f prof
    if devInRange dev s1 then accept P f prof (BitVec.ofInt 8 dev) s1
    else s1.emit (.devRange dev)

end Sys2Proof.Machine
end

