-- ==== Sys2Proof/Machine/SyncBlock.lean ====
section
/-! DEFINITION. Variant B, the fixed-block frame synchronizer, and PUSHBLK (42_sync_block.md). -/

namespace Sys2Proof.Machine

/-- marker_ok_B: every header byte that MARKER_MASK_B enables equals MARKER_B's (R162). -/
def markerOkB (P : Params) (f : List Byte) : Bool :=
  (List.range 4).all fun k => !P.markerMaskB.getLsbD k || frameAt f k == P.markerB[k]?.getD 0

/-- PUSHBLK's own effect (R160): marker, then device range, then the validator; refused by value under variant A (R161). -/
def pushBlock (P : Params) (s : State) : State :=
  match s.profile with
  | .A => s.emit (.wrongProfile (encode .pushblk))
  | .B =>
    let f := busBytes s.bus
    let dev := deviceIndex P f .B
    if !markerOkB P f then s.emit .blkReject
    else if !devInRange dev s then s.emit (.devRange dev)
    else validate P f .B s

/-- PUSHBLK (R160). -/
def execPushblk (s : State) : Host.Outcome State Fault Refusal := runCommand (pushBlock Config.params) s

end Sys2Proof.Machine
end

