-- ==== Sys2Proof/Machine/SyncRolling.lean ====
section
/-! DEFINITION. Variant A, the rolling frame synchronizer, and PUSHB (41_sync_rolling.md). -/

namespace Sys2Proof.Machine

/-- hdr_ok_A (R132). -/
def hdrOkA (b0 b1 b2 : Byte) : Bool :=
  (0x01 ≤ b0.toNat && b0.toNat ≤ 0x10 && b1 == 0x04 && (b2 == 0x24 || b2 == 0x34)) ||
  (0x01 ≤ b0.toNat && b0.toNat ≤ 0x10 && b1 == 0x01 && b2 == 0x12)

/-- len_A (R135). -/
def lenA (b1 b2 : Byte) : Nat :=
  if b2 = 0x24 then 41
  else if b2 = 0x34 then 57
  else if b1 = 0x01 ∧ b2 = 0x12 then 23
  else 0

/-- The retry loop of PUSHB (R130, R134) on the buffer it is given: fewer than MIN_HDR_A bytes wait; a bad header
drops one byte and goes round again; a length of 0 does the same; a locked header waits for L bytes; with L bytes
the buffer is cleared and the candidate validated. -/
def syncLoop (P : Params) : List Byte → State → State
  | b0 :: b1 :: b2 :: more, s =>
    let buf := b0 :: b1 :: b2 :: more
    let len := lenA b1 b2
    if buf.length < Config.minHdrA then s.setBuf buf
    else if !hdrOkA b0 b1 b2 then syncLoop P (b1 :: b2 :: more) (s.emit .hdrDrop)
    else if len = 0 then syncLoop P (b1 :: b2 :: more) (s.emit .lenZero)
    else if buf.length < len then s.setBuf buf
    else validate P (buf.take len) .A (s.setBuf [])
  | buf, s => s.setBuf buf

/-- PUSHB's own effect (R130): append, evict past the capacity (R133), then the loop; refused by value under
variant B (R131). -/
def pushByte (P : Params) (b : Byte) (s : State) : State :=
  match s.profile with
  | .B => s.emit (.wrongProfile (encode (.pushb b)))
  | .A =>
    let buf := s.buf ++ [b]
    if Config.capA < buf.length then syncLoop P (buf.drop 1) (s.emit .evict) else syncLoop P buf s

/-- PUSHB (R130). -/
def execPushb (b : Byte) (s : State) : Host.Outcome State Fault Refusal := runCommand (pushByte Config.params b) s

end Sys2Proof.Machine
end

