-- ==== Sys2Proof/Machine/Dispatch.lean ====
section
/-! DEFINITION. One arm per command (45_host_commands.md R259). -/

namespace Sys2Proof.Machine

def exec (i : Instr) (s : State) : Host.Outcome State Fault Refusal :=
  match i with
  | .nop => Sys2Proof.Machine.execNop s
  | .srst => Sys2Proof.Machine.execSrst s
  | .pushb b => Sys2Proof.Machine.execPushb b s
  | .pushblk => Sys2Proof.Machine.execPushblk s
  | .wrcfg a v => Sys2Proof.Machine.execWrcfg a v s
  | .rdreg a => Sys2Proof.Machine.execRdreg a s
  | .crcclr => Sys2Proof.Machine.execCrcclr s
  | .crcb b => Sys2Proof.Machine.execCrcb b s

end Sys2Proof.Machine
end

