-- ==== Sys2Proof/Machine/HostPort.lean ====
section
/-! DEFINITION. How the host's inputs reach the block: commands with their bus value, and the reset input (00_scope.md
R9; 70_reset_and_hazards.md R280, R287; log 1 and 4). -/

namespace Sys2Proof.Machine

/-- With nothing presented the block holds its state and does nothing (R273). -/
def holdState (s : State) : Host.Outcome State Fault Refusal := .next s

/-- A level of the reset input (R280): a falling level releases reset, which leaves the reset state. -/
def driveReset (asserted : Bool) (rest : List HostInput) (s : State) : Host.Outcome State Fault Refusal :=
  let s1 := s.setInputs rest
  .next (if s.resetLine && !asserted then s1.releaseReset else s1.setResetLine asserted)

/-- While reset is asserted no command is executed (R280). DESIGN CHOICE (log 4): the command is consumed and gives
no output. -/
def ignoreCommand (rest : List HostInput) (s : State) : Host.Outcome State Fault Refusal := .next (s.setInputs rest)

/-- The state a command runs in: it has left the inputs, and its bus value is on the block bus (R70). -/
def takeCommand (blk : Bus) (rest : List HostInput) (s : State) : State := (s.setInputs rest).setBus blk

/-- The host issues a command word next, with the bus value that stands on the bus, and reset released (log 9). -/
def issueWord (w : CmdWord) (s : State) : State := (s.setInputs (.command w s.bus :: s.inputs)).setResetLine false

end Sys2Proof.Machine
end

