-- ==== Sys2Proof/Machine/Step.lean ====
section
/-! DEFINITION. One step of the block: the next input of the host (00_scope.md R9, 45_host_commands.md R259). -/

namespace Sys2Proof.Machine

/-- One step (R9, R259, R273, R280). -/
def step (s : State) : Host.Outcome State Fault Refusal :=
  match s.inputs with
  | [] => holdState s
  | .resetLine asserted :: rest => driveReset asserted rest s
  | .command w blk :: rest =>
    if s.resetLine then ignoreCommand rest s
    else
      match decode w with
      | .ok i => exec i (takeCommand blk rest s)
      | .error _ => execIllegal w (takeCommand blk rest s)

/-- The state in which the next step runs the given command word (log 9). -/
def State.withFetchWord (s : State) (nbits w : Nat) : State := issueWord (BitVec.ofNat 32 (w % 2 ^ nbits)) s

end Sys2Proof.Machine
end

