-- ==== Sys2Proof/Machine/Assembler.lean ====
section
/-! DEFINITION. What an assembly line presents to the block: command words with their bus value (30_encoding.md R76, R77). -/

namespace Sys2Proof.Machine

/-- The address a register operand names (R76). -/
def operandAddr : RegOperand → BitVec 8
  | .named r => regAddr r
  | .raw a => BitVec.ofNat 8 a

/-- The commands of a line, pseudo-instructions expanded (R77); a raw word is none of them (R76). -/
def lineInstrs : AsmLine → List Instr
  | .nop => [.nop]
  | .srst => [.srst]
  | .pushb b => [.pushb (BitVec.ofNat 8 b)]
  | .pushblk _ => [.pushblk]
  | .wrcfg r imm => [.wrcfg (operandAddr r) (BitVec.ofNat 16 imm)]
  | .rdreg r => [.rdreg (operandAddr r)]
  | .crcclr => [.crcclr]
  | .crcb b => [.crcb (BitVec.ofNat 8 b)]
  | .word _ => []
  | .pushs bs => bs.map fun b => .pushb (BitVec.ofNat 8 b)
  | .crcs bs => .crcclr :: bs.map fun b => .crcb (BitVec.ofNat 8 b)
  | .setprof p => [.wrcfg (regAddr .ctrl) ((profileBit p).setWidth 16)]
  | .setdev n => [.wrcfg (regAddr .devcnt) (BitVec.ofNat 16 n)]
  | .selcat c => [.wrcfg (regAddr .catsel) (BitVec.ofNat 16 c)]

/-- The block bus value whose byte k is the k-th of the list (R53, R76). -/
def blockBus : List Nat → Nat
  | [] => 0
  | b :: rest => b + 256 * blockBus rest

/-- The bus value a line presents: PUSHBLK's own bytes. DESIGN CHOICE (log 15): 0 for every other line, which
ignores it (R70). -/
def lineBus : AsmLine → Bus
  | .pushblk bs => BitVec.ofNat 256 (blockBus bs)
  | _ => 0

/-- The words of a line (R76). -/
def lineWords : AsmLine → List CmdWord
  | .word v => [BitVec.ofNat 32 v]
  | line => (lineInstrs line).map encode

/-- The inputs a line presents to the block. -/
def assemble (line : AsmLine) : List HostInput := (lineWords line).map fun w => .command w (lineBus line)

end Sys2Proof.Machine
end

