-- ==== Sys2Proof/Machine/Observe.lean ====
section
/-! DEFINITION. The observation functions: the readings an observer applies to the category vectors (44_alarm_decoder.md R237
to R239). They are no outputs of the block, and no command uses them. -/

namespace Sys2Proof.Machine

/-- M.label under the map of a profile. -/
def profileLabel (P : Params) : Profile → Nat → Nat → Option (LabelCat × LabelId)
  | .A, j, i => mapLabel P.alarmMapA j i
  | .B, j, i => mapLabel P.alarmMapB j i

/-- The ranks set in a category vector, ascending. -/
def setRanks (P : Params) (a : AlarmLatch) (c : Category) : List Nat :=
  (List.range (profileRanks P a.prof c).length).filter fun r => (categoryVector P a c).getLsbD r

/-- id_c(r): the label of rank r (R232). -/
def labelAt (P : Params) (a : AlarmLatch) (c : LabelCat) (r : Nat) : Option LabelId :=
  match (profileRanks P a.prof (.label c))[r]? with
  | some (j, i) => (profileLabel P a.prof j i).map (·.2)
  | none => none

/-- labels(c) (R237). -/
def labels (P : Params) (a : AlarmLatch) (c : LabelCat) : List LabelId :=
  (setRanks P a (.label c)).filterMap (labelAt P a c)

/-- cells(c): cell numbers, 1-based (R238). -/
def cells (P : Params) (a : AlarmLatch) (c : CellCat) : List Nat := (setRanks P a (.cell c)).map (· + 1)

/-- An item of a composed list: an entry, or the abstract separator SEP (R239, log 12). -/
inductive Shown where
  | item (n : Nat)
  | sep
deriving DecidableEq, Repr

/-- compose(low, high) (R239). -/
def compose (low high : List Nat) : List Shown :=
  if low ≠ [] ∧ high ≠ [] then low.map .item ++ [.sep] ++ high.map .item
  else if low ≠ [] then low.map .item
  else high.map .item

end Sys2Proof.Machine
end

