-- ==== Sys2Proof/Machine/Run.lean ====
section
/-! DEFINITION. A sequence of commands run one after another, with all the events they emit: how the pseudo-instructions PUSHS and
CRCS act (30_encoding.md R77; 20_memory.md R61). -/

namespace Sys2Proof.Machine

/-- The state after the commands, and their events in emission order; none if a command gave no next state. -/
def runInstrs : List Instr → State → Option (State × List Event)
  | [], s => some (s, [])
  | i :: rest, s =>
    match exec i s with
    | .next t => (runInstrs rest t).map fun (u, later) => (u, t.events ++ later)
    | .fault _ => none
    | .refused _ => none

end Sys2Proof.Machine
end

