-- ==== Sys2Proof/Safety.lean ====
section
/-! DEFINITION. What counts as a good state of the block, and the words the claims are stated in: the invariants of the
synchronizer, of the latches and of LAST_EVT, and the verdict on a candidate frame written out field by field. -/

namespace Sys2Proof.Safety

open Sys2Proof.Machine

/-- The first three bytes of a byte sequence are a header of variant A (R132). -/
abbrev headerAt (l : List Byte) : Prop := hdrOkA (frameAt l 0) (frameAt l 1) (frameAt l 2) = true

/-- The frame length its header gives (R135). -/
abbrev headerLenA (l : List Byte) : Nat := lenA (frameAt l 1) (frameAt l 2)

/-- The synchronizer invariant (R138) under variant A, and the empty buffer of variant B (R36). -/
abbrev SyncInv (s : State) : Prop :=
  match s.profile with
  | .A => s.buf.length ≤ 4 ∨ (headerAt s.buf ∧ 5 ≤ s.buf.length ∧ s.buf.length < headerLenA s.buf)
  | .B => s.buf = []

/-- The frame a frame latch holds. -/
def latchFrame (l : FrameLatch) : List Byte := l.bytes.toList.take l.len.toNat

/-- A frame of the shape its profile hands to the validator (R78, R80, R200). -/
def frameShape (P : Params) (f : List Byte) : Profile → Prop
  | .A => headerAt f ∧ f.length = headerLenA f
  | .B => f.length = 32 ∧ markerOkB P f = true

/-- A frame latch is clear, or holds a frame that passed every check, with its fields (R37, R200, R207). -/
def FrameGenuine (P : Params) (l : FrameLatch) : Prop :=
  (l.valid = false → l = .cleared) ∧
  (l.valid = true →
    frameShape P (latchFrame l) l.prof ∧
    (latchFrame l).length = l.len.toNat ∧
    frameCrc P (latchFrame l) l.prof = frameTrailer (latchFrame l) ∧
    deviceIndex P (latchFrame l) l.prof = (l.dev.toNat : Int) ∧ l.dev.toNat < 255 ∧
    l.rtype = frameRtype P (latchFrame l) l.prof ∧
    ∀ k, l.len.toNat ≤ k → l.bytes[k]?.getD 0 = 0)

/-- An alarm latch is clear, or holds a whole payload of its profile, zero-filled (R38, R234). -/
def AlarmGenuine (a : AlarmLatch) : Prop :=
  (a.valid = false → a = .cleared) ∧
  (a.valid = true →
    a.plen = (match a.prof with | .A => 18 | .B => 26) ∧
    ∀ k, a.plen.toNat ≤ k → a.p[k]?.getD 0 = 0)

/-- When the last accepted frame is an alarm record, the alarm latch holds that frame's payload, device and
profile (R207, R234). -/
def AlarmOfFrame (l : FrameLatch) (a : AlarmLatch) : Prop :=
  (a.valid = true → l.valid = true) ∧
  (l.valid = true → l.rtype = alarmRtype →
    a.valid = true ∧ a.dev = l.dev ∧ a.prof = l.prof ∧
    a.p.toList.take a.plen.toNat = framePayload (latchFrame l) l.prof)

/-- Both latches hold only what acceptance puts there. -/
def LatchInv (P : Params) (s : State) : Prop :=
  FrameGenuine P s.frm ∧ AlarmGenuine s.alm ∧ AlarmOfFrame s.frm s.alm

/-- LAST_EVT holds an event code of R261, and the code of the last event while the last command emitted one (R39). -/
def EventInv (s : State) : Prop :=
  s.lastEvt.toNat ≤ 0xA ∧ ∀ e, s.events.getLast? = some e → s.lastEvt = e.code

/-- The verdict on a candidate frame (R200, R202, R203, R207, R234), field by field: `before` are the events the
command emitted before the validator was reached. -/
def verdict (P : Params) (f : List Byte) (prof : Profile) (before : List Event) (s : State) : State :=
  let dev := deviceIndex P f prof
  let rtype := frameRtype P f prof
  let checked : State := { s with rdata := 0, crcCalc := frameCrc P f prof, crcRecv := frameTrailer f }
  if frameCrc P f prof ≠ frameTrailer f then
    { checked with events := before ++ [.crcErr (frameCrc P f prof) (frameTrailer f)], lastEvt := 0x4 }
  else if dev < 0 ∨ (s.deviceCount.toNat : Int) ≤ dev then
    { checked with events := before ++ [.devRange dev], lastEvt := 0x5 }
  else
    { checked with
      frm :=
        { bytes := Vector.ofFn fun k : Fin 57 => f.getD k.val 0
          len := BitVec.ofNat 8 f.length
          dev := BitVec.ofInt 8 dev
          rtype := rtype
          prof := prof
          valid := true }
      alm :=
        if rtype = 0x12 then
          { p := Vector.ofFn fun k : Fin 26 => (framePayload f prof).getD k.val 0
            plen := BitVec.ofNat 8 (framePayload f prof).length
            dev := BitVec.ofInt 8 dev
            prof := prof
            valid := true }
        else s.alm
      events := before ++ [.frameOk (BitVec.ofInt 8 dev) rtype f]
      lastEvt := 0x1 }

end Sys2Proof.Safety
end

