-- ==== Sys2Proof/Certificates/Slice0/Obligations.lean ====
section
/-! DEFINITION. The statements for the provers. Each docstring names the rule of spec/ it formalises, or says that the statement is
derived. -/

open Sys2Proof Sys2Proof.Machine Sys2Proof.Safety

/-- The 256 entries of CRC_TABLE_A as R101 lists them, eight a row. -/
def Sys2Proof.Safety.listedTableA : List Half :=
  [0x0000, 0xC0C1, 0xC181, 0x0140, 0xC301, 0x03C0, 0x0280, 0xC241] ++
  [0xC601, 0x06C0, 0x0780, 0xC741, 0x0500, 0xC5C1, 0xC481, 0x0440] ++
  [0xCC01, 0x0CC0, 0x0D80, 0xCD41, 0x0F00, 0xCFC1, 0xCE81, 0x0E40] ++
  [0x0A00, 0xCAC1, 0xCB81, 0x0B40, 0xC901, 0x09C0, 0x0880, 0xC841] ++
  [0xD801, 0x18C0, 0x1980, 0xD941, 0x1B00, 0xDBC1, 0xDA81, 0x1A40] ++
  [0x1E00, 0xDEC1, 0xDF81, 0x1F40, 0xDD01, 0x1DC0, 0x1C80, 0xDC41] ++
  [0x1400, 0xD4C1, 0xD581, 0x1540, 0xD701, 0x17C0, 0x1680, 0xD641] ++
  [0xD201, 0x12C0, 0x1380, 0xD341, 0x1100, 0xD1C1, 0xD081, 0x1040] ++
  [0xF001, 0x30C0, 0x3180, 0xF141, 0x3300, 0xF3C1, 0xF281, 0x3240] ++
  [0x3600, 0xF6C1, 0xF781, 0x3740, 0xF501, 0x35C0, 0x3480, 0xF441] ++
  [0x3C00, 0xFCC1, 0xFD81, 0x3D40, 0xFF01, 0x3FC0, 0x3E80, 0xFE41] ++
  [0xFA01, 0x3AC0, 0x3B80, 0xFB41, 0x3900, 0xF9C1, 0xF881, 0x3840] ++
  [0x2800, 0xE8C1, 0xE981, 0x2940, 0xEB01, 0x2BC0, 0x2A80, 0xEA41] ++
  [0xEE01, 0x2EC0, 0x2F80, 0xEF41, 0x2D00, 0xEDC1, 0xEC81, 0x2C40] ++
  [0xE401, 0x24C0, 0x2580, 0xE541, 0x2700, 0xE7C1, 0xE681, 0x2640] ++
  [0x2200, 0xE2C1, 0xE381, 0x2340, 0xE101, 0x21C0, 0x2080, 0xE041] ++
  [0xA001, 0x60C0, 0x6180, 0xA141, 0x6300, 0xA3C1, 0xA281, 0x6240] ++
  [0x6600, 0xA6C1, 0xA781, 0x6740, 0xA501, 0x65C0, 0x6480, 0xA441] ++
  [0x6C00, 0xACC1, 0xAD81, 0x6D40, 0xAF01, 0x6FC0, 0x6E80, 0xAE41] ++
  [0xAA01, 0x6AC0, 0x6B80, 0xAB41, 0x6900, 0xA9C1, 0xA881, 0x6840] ++
  [0x7800, 0xB8C1, 0xB981, 0x7940, 0xBB01, 0x7BC0, 0x7A80, 0xBA41] ++
  [0xBE01, 0x7EC0, 0x7F80, 0xBF41, 0x7D00, 0xBDC1, 0xBC81, 0x7C40] ++
  [0xB401, 0x74C0, 0x7580, 0xB541, 0x7700, 0xB7C1, 0xB681, 0x7640] ++
  [0x7200, 0xB2C1, 0xB381, 0x7340, 0xB101, 0x71C0, 0x7080, 0xB041] ++
  [0x5000, 0x90C1, 0x9181, 0x5140, 0x9301, 0x53C0, 0x5280, 0x9241] ++
  [0x9601, 0x56C0, 0x5780, 0x9741, 0x5500, 0x95C1, 0x9481, 0x5440] ++
  [0x9C01, 0x5CC0, 0x5D80, 0x9D41, 0x5F00, 0x9FC1, 0x9E81, 0x5E40] ++
  [0x5A00, 0x9AC1, 0x9B81, 0x5B40, 0x9901, 0x59C0, 0x5880, 0x9841] ++
  [0x8801, 0x48C0, 0x4980, 0x8941, 0x4B00, 0x8BC1, 0x8A81, 0x4A40] ++
  [0x4E00, 0x8EC1, 0x8F81, 0x4F40, 0x8D01, 0x4DC0, 0x4C80, 0x8C41] ++
  [0x4400, 0x84C1, 0x8581, 0x4540, 0x8701, 0x47C0, 0x4680, 0x8641] ++
  [0x8201, 0x42C0, 0x4380, 0x8341, 0x4100, 0x81C1, 0x8081, 0x4040]
/-! ## Encoding -/

/-- Derived from R70 to R73: decoding the word of any command gives that command back, whatever its operands. -/
def Obligations.DecodeOfEncodeIsTheCommand : Prop :=
  ∀ i : Instr, i.wellFormed = true → decode (encode i) = .ok i

/-- Derived from R71 to R73: each word has one meaning, and no bit of a legal word is dropped. -/
def Obligations.EncodeOfDecodeIsTheWord : Prop :=
  ∀ (w : CmdWord) (i : Instr), decode w = .ok i → encode i = w

/-- R72 and R73: a word decodes to a command exactly when its masked bits are that row's pattern, with the operands
of the row's format; a word that no row matches is Illegal. -/
def Obligations.DecodeFollowsTheOpcodeMap : Prop :=
  ∀ w : CmdWord,
    (decode w = .ok .nop ↔ w &&& 0xFFFFFFFF = 0x00000000) ∧
    (decode w = .ok .srst ↔ w &&& 0xFFFFFFFF = 0x10000000) ∧
    (∀ b, decode w = .ok (.pushb b) ↔ w &&& 0xFFFFFF00 = 0x20000000 ∧ b = w.extractLsb' 0 8) ∧
    (decode w = .ok .pushblk ↔ w &&& 0xFFFFFFFF = 0x30000000) ∧
    (∀ a v, decode w = .ok (.wrcfg a v) ↔
      w &&& 0xFF000000 = 0x40000000 ∧ a = w.extractLsb' 16 8 ∧ v = w.extractLsb' 0 16) ∧
    (∀ a, decode w = .ok (.rdreg a) ↔ w &&& 0xFF00FFFF = 0x50000000 ∧ a = w.extractLsb' 16 8) ∧
    (decode w = .ok .crcclr ↔ w &&& 0xFFFFFFFF = 0x60000000) ∧
    (∀ b, decode w = .ok (.crcb b) ↔ w &&& 0xFFFFFF00 = 0x70000000 ∧ b = w.extractLsb' 0 8) ∧
    ((∃ e, decode w = .error e) ↔
      w &&& 0xFFFFFFFF ≠ 0x00000000 ∧ w &&& 0xFFFFFFFF ≠ 0x10000000 ∧ w &&& 0xFFFFFF00 ≠ 0x20000000 ∧
      w &&& 0xFFFFFFFF ≠ 0x30000000 ∧ w &&& 0xFF000000 ≠ 0x40000000 ∧ w &&& 0xFF00FFFF ≠ 0x50000000 ∧
      w &&& 0xFFFFFFFF ≠ 0x60000000 ∧ w &&& 0xFFFFFF00 ≠ 0x70000000)

/-- Derived from R74: which words are Illegal, and that executing one emits ILLEGAL_CMD(w), gives rdata = 0 and changes
no state of the spec but LAST_EVT. That the word is taken from the head of a list of inputs, and that its bus value
then stands in the bus field, is the model's choice (log 1, log 3). -/
def Obligations.IllegalWordsEmitIllegalCmd : Prop :=
  ∀ w : CmdWord,
    ((∃ e, decode w = .error e) ↔
      8 ≤ (w.extractLsb' 28 4).toNat ∨ w.extractLsb' 24 4 ≠ 0 ∨
      ((w.extractLsb' 28 4).toNat ∈ [0, 1, 3, 6] ∧ w.extractLsb' 0 24 ≠ 0) ∨
      ((w.extractLsb' 28 4).toNat ∈ [2, 7] ∧ w.extractLsb' 8 16 ≠ 0) ∨
      ((w.extractLsb' 28 4).toNat = 5 ∧ w.extractLsb' 0 16 ≠ 0)) ∧
    ∀ (e : IllegalWord) (s : State) (blk : Bus) (rest : List HostInput),
      decode w = .error e → s.resetLine = false → s.inputs = .command w blk :: rest →
      step s = .next
        { s with inputs := rest, bus := blk, rdata := 0, events := [.illegalCmd w], lastEvt := 0x8 }

/-- Derived from R70 to R72: words written out from the opcode map decode to the commands they stand for. -/
def Obligations.WrittenWordsDecode : Prop :=
  decode 0x00000000 = .ok .nop ∧ decode 0x10000000 = .ok .srst ∧ decode 0x200000FF = .ok (.pushb 0xFF) ∧
  decode 0x30000000 = .ok .pushblk ∧ decode 0x4001FFFF = .ok (.wrcfg 0x01 0xFFFF) ∧
  decode 0x50080000 = .ok (.rdreg 0x08) ∧ decode 0x60000000 = .ok .crcclr ∧ decode 0x70000037 = .ok (.crcb 0x37)

/-- Derived from R76, R77, R71, R72 and R23: the words of every assembly form, each pseudo-instruction expanded and every
operand in its field; the address of every register name; the bus value of a PUSHBLK line, its 32 bytes in stream
order (R53); and that the words of a line decode to its commands. The lines are data, their text is not kept
(log 16). -/
def Obligations.AssemblyLinesPresentTheirCommands : Prop :=
  let words (line : AsmLine) : List Nat := (lineWords line).map (·.toNat)
  (words .nop = [0x00000000] ∧ words .srst = [0x10000000] ∧ words .crcclr = [0x60000000]) ∧
  (∀ b, b < 256 → words (.pushb b) = [0x20000000 + b] ∧ words (.crcb b) = [0x70000000 + b]) ∧
  (∀ bs, (AsmLine.pushblk bs).wellFormed = true →
    assemble (.pushblk bs) = [.command 0x30000000 (lineBus (.pushblk bs))] ∧
    busBytes (lineBus (.pushblk bs)) = bs.map fun b => BitVec.ofNat 8 b) ∧
  (∀ a imm, a < 256 → imm < 65536 →
    words (.wrcfg (.raw a) imm) = [0x40000000 + 0x10000 * a + imm] ∧
    words (.rdreg (.raw a)) = [0x50000000 + 0x10000 * a]) ∧
  (∀ (r : Reg) (imm : Nat), imm < 65536 →
    words (.wrcfg (.named r) imm) = [0x40000000 + 0x10000 * (regAddr r).toNat + imm] ∧
    words (.rdreg (.named r)) = [0x50000000 + 0x10000 * (regAddr r).toNat]) ∧
  (regAddr .ctrl = 0x00 ∧ regAddr .devcnt = 0x01 ∧ regAddr .catsel = 0x02 ∧ regAddr .status = 0x08 ∧
    regAddr .lastfrm = 0x09 ∧ regAddr .lastlen = 0x0A ∧ regAddr .crcCalc = 0x0B ∧ regAddr .crcRecv = 0x0C ∧
    regAddr .crcAcc = 0x0D ∧ regAddr .almstat = 0x0E ∧
    (∀ k : Fin 16, (regAddr (.almout k)).toNat = 0x20 + k.val) ∧
    ∀ k : Fin 29, (regAddr (.frame k)).toNat = 0x40 + k.val) ∧
  (∀ bs, bs.all (· < 256) = true → words (.pushs bs) = bs.map (0x20000000 + ·)) ∧
  (∀ bs, bs.all (· < 256) = true → words (.crcs bs) = 0x60000000 :: bs.map (0x70000000 + ·)) ∧
  (words (.setprof .A) = [0x40000000] ∧ words (.setprof .B) = [0x40000001]) ∧
  (∀ n, n ≤ 255 → words (.setdev n) = [0x40010000 + n]) ∧
  (∀ c, c ≤ 15 → words (.selcat c) = [0x40020000 + c]) ∧
  (∀ v, v < 4294967296 → words (.word v) = [v]) ∧
  (∀ line : AsmLine, line.wellFormed = true → (∀ v, line ≠ .word v) →
    (lineWords line).map decode = (lineInstrs line).map .ok)

/-! ## The step, reset and the ports -/

/-- Derived from R9 and R259: when reset is not asserted and the next input is a command whose word decodes to `i`,
the step is `exec i` on the state with that input taken and its bus value on the block bus (that the inputs are a list
and the bus value a field of the state is the model's choice, log 1 and log 3). -/
def Obligations.StepExecutesTheDecodedCommand : Prop :=
  ∀ (s : State) (w : CmdWord) (blk : Bus) (rest : List HostInput) (i : Instr),
    s.resetLine = false → s.inputs = .command w blk :: rest → decode w = .ok i →
    step s = exec i { s with inputs := rest, bus := blk }

/-- R42: the value of every piece of state after hardware reset. -/
def Obligations.ResetStateValues : Prop :=
  State.reset.profile = .A ∧ State.reset.deviceCount = 0 ∧ State.reset.cat = 0 ∧ State.reset.buf = [] ∧
  (∀ k : Fin 57, State.reset.frm.bytes[k] = 0) ∧ State.reset.frm.len = 0 ∧ State.reset.frm.dev = 0 ∧
  State.reset.frm.rtype = 0 ∧ State.reset.frm.prof = .A ∧ State.reset.frm.valid = false ∧
  (∀ k : Fin 26, State.reset.alm.p[k] = 0) ∧ State.reset.alm.plen = 0 ∧ State.reset.alm.dev = 0 ∧
  State.reset.alm.prof = .A ∧ State.reset.alm.valid = false ∧
  State.reset.crcCalc = 0x0000 ∧ State.reset.crcRecv = 0x0000 ∧ State.reset.crcAcc = 0xFFFF ∧
  State.reset.lastEvt = 0

/-- Derived from R280: while the reset input is asserted no command is executed, and its release leaves the reset
state. That a command presented meanwhile is consumed, that the inputs still to come stay, and that rdata, the event
list and the bus value then hold 0, nothing and 0, is the model's choice (log 1 to log 4): R280 and R42 give the state
tuple of R20 alone. -/
def Obligations.ResetInputGivesTheResetState : Prop :=
  (∀ (s : State) (rest : List HostInput), s.inputs = .resetLine true :: rest →
    step s = .next { s with inputs := rest, resetLine := true }) ∧
  (∀ (s : State) (w : CmdWord) (blk : Bus) (rest : List HostInput),
    s.resetLine = true → s.inputs = .command w blk :: rest → step s = .next { s with inputs := rest }) ∧
  (∀ (s : State) (rest : List HostInput), s.resetLine = true → s.inputs = .resetLine false :: rest →
    step s = .next { State.reset with inputs := rest })

/-- Derived from R9, R262 and R273: every state has a next one; a command is taken whether or not it emits events,
and leaves the block ready for the next; with nothing presented the block holds its state. That a command is taken
from the head of a list of inputs is the model's choice (log 1). -/
def Obligations.TheBlockNeverStops : Prop :=
  ∀ s : State, ∃ t, step s = .next t ∧
    (s.inputs = [] → t = s) ∧
    ∀ (w : CmdWord) (blk : Bus) (rest : List HostInput),
      s.resetLine = false → s.inputs = .command w blk :: rest → t.inputs = rest ∧ t.resetLine = false

/-- Derived from R9 and R259: every command with every operand completes in every state, and does not touch the
inputs still to come, the reset input or the bus. -/
def Obligations.EveryCommandCompletes : Prop :=
  ∀ (i : Instr) (s : State), ∃ t, exec i s = .next t ∧
    t.inputs = s.inputs ∧ t.resetLine = s.resetLine ∧ t.bus = s.bus

/-- Derived from R39 and R259: after a command other than SRST, LAST_EVT holds the code of the last event it
emitted, and is unchanged if it emitted none. -/
def Obligations.LastEventIsTheLastEmitted : Prop :=
  ∀ (i : Instr) (s t : State), exec i s = .next t → i ≠ .srst →
    t.lastEvt = (match t.events.getLast? with | some e => e.code | none => s.lastEvt)

/-- Derived from the table of R261: the event codes. -/
def Obligations.EventCodesAreTheTables : Prop :=
  (∀ d r f, (Event.frameOk d r f).code = 0x1) ∧ Event.hdrDrop.code = 0x2 ∧ Event.lenZero.code = 0x3 ∧
  (∀ c r, (Event.crcErr c r).code = 0x4) ∧ (∀ d, (Event.devRange d).code = 0x5) ∧ Event.blkReject.code = 0x6 ∧
  Event.evict.code = 0x7 ∧ (∀ w, (Event.illegalCmd w).code = 0x8) ∧ (∀ w, (Event.wrongProfile w).code = 0x9) ∧
  (∀ a, (Event.badReg a).code = 0xA)

/-- Derived from R70: the block bus is read only by PUSHBLK; every other command gives the same result whatever
stands on it. -/
def Obligations.BlockBusMattersOnlyToPushblk : Prop :=
  ∀ (i : Instr) (s t : State) (b : Bus), i ≠ .pushblk → exec i s = .next t →
    exec i { s with bus := b } = .next { t with bus := b }

/-! ## NOP and SRST -/

/-- R250: NOP, word 0x00000000, leaves the state and LAST_EVT unchanged, emits nothing and gives rdata = 0; any other
word with OP = 0 is illegal. -/
def Obligations.NopChangesNothing : Prop :=
  decode 0x00000000 = .ok .nop ∧
  (∀ s : State, exec .nop s = .next { s with rdata := 0, events := [] }) ∧
  ∀ w : CmdWord, w.extractLsb' 28 4 = 0 → w ≠ 0 → ∃ e, decode w = .error e

/-- R251 and R282: SRST, word 0x10000000, gives the reset state with PROFILE, DEVICE_COUNT and CAT kept (and the ports
the command does not drive), emits nothing, is idempotent, and STATUS then reads 0x0000. -/
def Obligations.SrstResetsTheDatapath : Prop :=
  decode 0x10000000 = .ok .srst ∧
  ∀ s : State, ∃ t, exec .srst s = .next t ∧
    t = { State.reset with
          profile := s.profile, deviceCount := s.deviceCount, cat := s.cat
          inputs := s.inputs, resetLine := s.resetLine, bus := s.bus } ∧
    exec .srst t = .next t ∧
    ∃ u, exec (.rdreg 0x08) t = .next u ∧ u.rdata = 0x0000

/-! ## The CRC engine -/

/-- R100: the CRC of an empty sequence is the seed 0xFFFF, and one more byte is one update of the accumulator. -/
def Obligations.CrcIsTheTableLoop : Prop :=
  ∀ T : Byte → Half, crc T [] = 0xFFFF ∧
    ∀ (l : List Byte) (b : Byte), crc T (l ++ [b]) =
      (crc T l >>> 8) ^^^ T (((crc T l ^^^ b.setWidth 16) &&& 0x00FF).setWidth 8)

/-- R101: each entry of the table is eight steps of the reflected polynomial from its index, and the 256 entries are the
listed ones, in order. -/
def Obligations.CrcTableAHasTheListedEntries : Prop :=
  (∀ n : Byte, crcTableA n =
    Nat.repeat (fun c : Half => (c >>> 1) ^^^ (if c.getLsbD 0 then 0xA001 else 0)) 8 (n.setWidth 16)) ∧
  listedTableA.length = 256 ∧ ∀ n : Fin 256, listedTableA[n.val]? = some (crcTableA (BitVec.ofNat 8 n.val))

/-- Derived from R102: with CRC_TABLE_A one table update is eight bitwise steps on the accumulator with the byte
folded in, and the check value over "123456789" is 0x4B37. -/
def Obligations.TableUpdateIsEightBitSteps : Prop :=
  (∀ (acc : Half) (b : Byte),
    crcUpdate crcTableA acc b =
      Nat.repeat (fun c : Half => (c >>> 1) ^^^ (if c.getLsbD 0 then 0xA001 else 0x0000)) 8
        (acc ^^^ b.setWidth 16)) ∧
  crc crcTableA [0x31, 0x32, 0x33, 0x34, 0x35, 0x36, 0x37, 0x38, 0x39] = 0x4B37

/-- Derived from R107: with CRC_TABLE_A, a sequence followed by two bytes has CRC zero exactly when they are its own
CRC, low byte first. -/
def Obligations.ResidueIsZeroExactlyForTheTrailer : Prop :=
  ∀ (l : List Byte) (lo hi : Byte), crc crcTableA (l ++ [lo, hi]) = 0x0000 ↔ crc crcTableA l = hi ++ lo

/-- R105: CRCCLR, word 0x60000000, seeds CRC_ACC and changes nothing else; any other word with OP = 0x6 is illegal. -/
def Obligations.CrcclrSeedsTheAccumulator : Prop :=
  decode 0x60000000 = .ok .crcclr ∧
  (∀ s : State, exec .crcclr s = .next { s with crcAcc := 0xFFFF, rdata := 0, events := [] }) ∧
  ∀ w : CmdWord, w.extractLsb' 28 4 = 0x6 → w ≠ 0x60000000 → ∃ e, decode w = .error e

/-- Derived from R106 and R104: CRCB feeds one byte to CRC_ACC by the table of the selected profile and changes nothing else; a
word with OP = 0x7 and a nonzero bit in 27:8 is illegal. -/
def Obligations.CrcbFeedsOneByte : Prop :=
  (∀ (b : Byte) (s : State), exec (.crcb b) s = .next
    { s with
      crcAcc := (s.crcAcc >>> 8) ^^^
        (match s.profile with | .A => crcTableA | .B => Config.params.crcTableB)
          ((s.crcAcc ^^^ b.setWidth 16).extractLsb' 0 8)
      rdata := 0, events := [] }) ∧
  ∀ w : CmdWord, w.extractLsb' 28 4 = 0x7 → w.extractLsb' 8 20 ≠ 0 → ∃ e, decode w = .error e

/-- Derived from R106 and R100: CRCCLR followed by CRCB of each byte leaves the CRC of the bytes in CRC_ACC, emits
no event and leaves everything else as it was. -/
def Obligations.CrcCommandsComputeTheCrc : Prop :=
  ∀ (l : List Byte) (s : State),
    runInstrs (.crcclr :: l.map .crcb) s = some
      ({ s with crcAcc := crc (crcTable Config.params s.profile) l, rdata := 0, events := [] }, [])

/-- Derived from R30, R31 and R32: CRC_ACC is written only by CRCCLR, CRCB and SRST, and CRC_CALC and CRC_RECV only by
SRST and by a PUSHB or PUSHBLK that ends in the validator's verdict. -/
def Obligations.CrcRegistersHaveOnlyTheirWriters : Prop :=
  ∀ (i : Instr) (s t : State), exec i s = .next t →
    (t.crcAcc ≠ s.crcAcc → i = .crcclr ∨ i = .srst ∨ ∃ b, i = .crcb b) ∧
    ((t.crcCalc ≠ s.crcCalc ∨ t.crcRecv ≠ s.crcRecv) →
      i = .srst ∨ (((∃ b, i = .pushb b) ∨ i = .pushblk) ∧
        ∃ e, t.events.getLast? = some e ∧
          ((∃ c r, e = .crcErr c r) ∨ (∃ d, e = .devRange d) ∨ (∃ d r f, e = .frameOk d r f))))

/-! ## WRCFG, RDREG and the register map -/

/-- R256 (with the frame of R255 and the side effect of R257): what a write of each configuration register does, and everything it leaves as it was. A write of
CTRL stores bit 0, and empties buf exactly when that changes PROFILE. -/
def Obligations.WrcfgWritesTheConfiguration : Prop :=
  ∀ (v : Half) (s : State),
    exec (.wrcfg 0x00 v) s = .next
      { s with
        profile := if v.getLsbD 0 then .B else .A
        buf := if s.profile = (if v.getLsbD 0 then .B else .A) then s.buf else []
        rdata := 0, events := [] } ∧
    exec (.wrcfg 0x01 v) s = .next { s with deviceCount := v.extractLsb' 0 8, rdata := 0, events := [] } ∧
    exec (.wrcfg 0x02 v) s = .next { s with cat := v.extractLsb' 0 4, rdata := 0, events := [] }

/-- R254: a WRCFG of any address but 0x00 to 0x02, and a RDREG of an unmapped address, read 0, emit BAD_REG and
change nothing but LAST_EVT. -/
def Obligations.AccessOutsideTheMapEmitsBadReg : Prop :=
  ∀ (a : BitVec 8) (s : State),
    (0x02 < a.toNat → ∀ v, exec (.wrcfg a v) s = .next
      { s with rdata := 0, events := [.badReg a], lastEvt := 0xA }) ∧
    (¬ (a.toNat ≤ 0x02 ∨ (0x08 ≤ a.toNat ∧ a.toNat ≤ 0x0E) ∨ (0x20 ≤ a.toNat ∧ a.toNat ≤ 0x2F) ∨
        (0x40 ≤ a.toNat ∧ a.toNat ≤ 0x5C)) →
      exec (.rdreg a) s = .next { s with rdata := 0, events := [.badReg a], lastEvt := 0xA })

/-- R252 (with the operation of R253): a RDREG of each mapped address gives its value as rdata and changes no state,
not even LAST_EVT. -/
def Obligations.RdregReadsTheRegisterMap : Prop :=
  ∀ s : State,
    let reads (a : BitVec 8) (v : Half) : Prop := exec (.rdreg a) s = .next { s with rdata := v, events := [] }
    let out : BitVec 256 := alarmOut Config.params s
    let frameByte (x : Nat) : Byte := if x < s.frm.len.toNat then s.frm.bytes[x]?.getD 0 else 0x00
    reads 0x00 (match s.profile with | .A => 0x0000 | .B => 0x0001) ∧
    reads 0x01 ((0 : BitVec 8) ++ s.deviceCount) ∧
    reads 0x02 ((0 : BitVec 12) ++ s.cat) ∧
    reads 0x08 (BitVec.ofNat 8 s.buf.length ++ s.lastEvt ++ (0 : BitVec 2) ++
      BitVec.ofBool s.alm.valid ++ BitVec.ofBool s.frm.valid) ∧
    reads 0x09 (s.frm.rtype ++ s.frm.dev) ∧
    reads 0x0A ((0 : BitVec 7) ++ (match s.frm.prof with | .A => (0 : BitVec 1) | .B => 1) ++ s.frm.len) ∧
    reads 0x0B s.crcCalc ∧ reads 0x0C s.crcRecv ∧ reads 0x0D s.crcAcc ∧
    reads 0x0E (BitVec.ofNat 8 ((List.range 256).countP fun r => out.getLsbD r) ++ s.alm.dev) ∧
    (∀ k : Nat, k < 16 → reads (BitVec.ofNat 8 (0x20 + k)) (out.extractLsb' (16 * k) 16)) ∧
    (∀ k : Nat, k < 29 → reads (BitVec.ofNat 8 (0x40 + k)) (frameByte (2 * k + 1) ++ frameByte (2 * k)))

/-- Derived from R43 and R24 to R26: what WRCFG wrote is read back with the reserved bits zero. -/
def Obligations.ReservedBitsReadZero : Prop :=
  ∀ (v : Half) (s : State),
    (∃ t u, exec (.wrcfg 0x00 v) s = .next t ∧ exec (.rdreg 0x00) t = .next u ∧ u.rdata = v &&& 0x0001) ∧
    (∃ t u, exec (.wrcfg 0x01 v) s = .next t ∧ exec (.rdreg 0x01) t = .next u ∧ u.rdata = v &&& 0x00FF) ∧
    (∃ t u, exec (.wrcfg 0x02 v) s = .next t ∧ exec (.rdreg 0x02) t = .next u ∧ u.rdata = v &&& 0x000F)

/-- Derived from R24 to R26 and R256: only WRCFG of address 0x00, 0x01 or 0x02 changes PROFILE, DEVICE_COUNT or CAT,
each at its own address. -/
def Obligations.ConfigurationHasOnlyItsWriter : Prop :=
  ∀ (i : Instr) (s t : State), exec i s = .next t →
    (t.profile ≠ s.profile → ∃ v, i = .wrcfg 0x00 v) ∧
    (t.deviceCount ≠ s.deviceCount → ∃ v, i = .wrcfg 0x01 v) ∧
    (t.cat ≠ s.cat → ∃ v, i = .wrcfg 0x02 v)

/-! ## Variant A: PUSHB -/

/-- R131 and R161: the command of the other variant emits WRONG_PROFILE with its word and changes nothing else but
LAST_EVT. -/
def Obligations.WrongProfileCommandsChangeNothing : Prop :=
  (∀ (b : Byte) (s : State), s.profile = .B → exec (.pushb b) s = .next
    { s with rdata := 0, events := [.wrongProfile ((0x200000 : BitVec 24) ++ b)], lastEvt := 0x9 }) ∧
  (∀ s : State, s.profile = .A → exec .pushblk s = .next
    { s with rdata := 0, events := [.wrongProfile 0x30000000], lastEvt := 0x9 })

/-- Derived from R132 and R135: the header predicate and the length of variant A. -/
def Obligations.HeaderTestAndLength : Prop :=
  ∀ b0 b1 b2 : Byte,
    (hdrOkA b0 b1 b2 = true ↔
      (0x01 ≤ b0.toNat ∧ b0.toNat ≤ 0x10 ∧ b1 = 0x04 ∧ (b2 = 0x24 ∨ b2 = 0x34)) ∨
      (0x01 ≤ b0.toNat ∧ b0.toNat ≤ 0x10 ∧ b1 = 0x01 ∧ b2 = 0x12)) ∧
    (b2 = 0x24 → lenA b1 b2 = 41) ∧ (b2 = 0x34 → lenA b1 b2 = 57) ∧ (b1 = 0x01 → b2 = 0x12 → lenA b1 b2 = 23) ∧
    (b2 ≠ 0x24 → b2 ≠ 0x34 → ¬ (b1 = 0x01 ∧ b2 = 0x12) → lenA b1 b2 = 0)

/-- Derived from R137, R79 and R81: every accepted header has a length, which is its length code plus 5, so
LEN_ZERO cannot happen. -/
def Obligations.AcceptedHeadersHaveLengths : Prop :=
  ∀ b0 b1 b2 : Byte, hdrOkA b0 b1 b2 = true →
    lenA b1 b2 = b2.toNat + 5 ∧ (lenA b1 b2 = 23 ∨ lenA b1 b2 = 41 ∨ lenA b1 b2 = 57)

/-- R133 and R134 (the loop of R130), in closed form and for every buffer: after the append and an eviction past 100 bytes, the
loop drops front bytes, one HDR_DROP each, as long as 5 bytes are there and their first three are no header; then it
waits on the rest, or, with the header's L bytes there, clears the buffer and gives the verdict on the L bytes. -/
def Obligations.PushbFollowsTheRetryLoop : Prop :=
  ∀ (b : Byte) (s : State), s.profile = .A →
    let appended := s.buf ++ [b]
    let start := if 100 < appended.length then appended.drop 1 else appended
    let evicted : List Event := if 100 < appended.length then [.evict] else []
    ∃ k, k ≤ start.length ∧
      (∀ j, j < k → 5 ≤ (start.drop j).length ∧ ¬ headerAt (start.drop j)) ∧
      let front := start.drop k
      let before := evicted ++ List.replicate k .hdrDrop
      ((front.length < 5 ∨ (headerAt front ∧ front.length < headerLenA front)) ∧
        exec (.pushb b) s = .next
          { s with
            buf := front, rdata := 0, events := before
            lastEvt := if 0 < k then 0x2 else if 100 < appended.length then 0x7 else s.lastEvt }) ∨
      (5 ≤ front.length ∧ headerAt front ∧ headerLenA front ≤ front.length ∧
        exec (.pushb b) s = .next
          (verdict Config.params (front.take (headerLenA front)) .A before { s with buf := [] }))

/-- Derived from R138 and R36, as an invariant every step keeps: under variant A the buffer holds at most 4 bytes, or a locked header
and fewer bytes than its frame; under variant B it is empty. -/
def Obligations.EveryStepKeepsTheSyncInvariant : Prop :=
  ∀ s t : State, SyncInv s → step s = .next t → SyncInv t

/-- Derived from R42, R138 and R37 to R39: the reset state meets the invariants. That the event list is empty there is
the model's choice (log 2). -/
def Obligations.ResetStateMeetsTheInvariants : Prop :=
  SyncInv State.reset ∧ LatchInv Config.params State.reset ∧ EventInv State.reset

/-- Derived from R139: under the invariant one PUSHB emits at most one event, never EVICT or LEN_ZERO, and the
buffer never holds more than 56 bytes. -/
def Obligations.PushbUnderTheInvariant : Prop :=
  ∀ (b : Byte) (s t : State), SyncInv s → exec (.pushb b) s = .next t →
    t.events.length ≤ 1 ∧ .evict ∉ t.events ∧ .lenZero ∉ t.events ∧ s.buf.length ≤ 56 ∧ t.buf.length ≤ 56

/-- Derived from R140, R130 and R138: a locked block takes the next bytes into its window whatever they are, header
shapes among them, until its L-th byte, and emits nothing. -/
def Obligations.LockedWindowIsNotReexamined : Prop :=
  ∀ (l : List Byte) (s : State), s.profile = .A → headerAt s.buf → 5 ≤ s.buf.length →
    s.buf.length + l.length < headerLenA s.buf →
    runInstrs (l.map .pushb) s = some
      ({ s with buf := s.buf ++ l
                rdata := if l = [] then s.rdata else 0
                events := if l = [] then s.events else [] }, [])

/-- Derived from R141, R134, R138 and R200 to R207: garbage in which no header starts, followed by a frame of a variant
A shape, pushed into an empty buffer, drops the garbage with one HDR_DROP a byte, keeps the frame until its last
byte, and on that byte empties the buffer and gives the verdict on exactly the frame. -/
def Obligations.GarbageThenFrameIsHandedOffWhole : Prop :=
  ∀ (g f : List Byte) (last : Byte) (s : State), s.profile = .A → s.buf = [] →
    headerAt (f ++ [last]) → (f ++ [last]).length = headerLenA (f ++ [last]) →
    (∀ k, k < g.length → ¬ headerAt ((g ++ f ++ [last]).drop k)) →
    ∃ u, runInstrs ((g ++ f).map .pushb) s = some (u, List.replicate g.length .hdrDrop) ∧
      u.buf = f ∧ u.profile = s.profile ∧ u.deviceCount = s.deviceCount ∧ u.cat = s.cat ∧ u.frm = s.frm ∧
      u.alm = s.alm ∧ u.crcCalc = s.crcCalc ∧ u.crcRecv = s.crcRecv ∧ u.crcAcc = s.crcAcc ∧
      exec (.pushb last) u = .next (verdict Config.params (f ++ [last]) .A [] { u with buf := [] })

/-- Derived from R141, R207, R35 and R52: a frame of a variant A shape whose trailer is its CRC and whose device is
configured, pushed byte by byte into an empty buffer, emits exactly one event, FRAME_OK with the whole frame, and the
FRAME window then reads the frame back. -/
def Obligations.ValidFrameRoundTrip : Prop :=
  ∀ (f : List Byte) (s : State), s.profile = .A → s.buf = [] → headerAt f → f.length = headerLenA f →
    crc crcTableA (f.take (f.length - 2)) = f.getD (f.length - 1) 0 ++ f.getD (f.length - 2) 0 →
    (f.getD 0 0).toNat ≤ s.deviceCount.toNat →
    ∃ t, runInstrs (f.map .pushb) s = some (t, [.frameOk (f.getD 0 0 - 1) (f.getD 2 0) f]) ∧
      t.buf = [] ∧ t.frm.valid = true ∧ t.frm.len.toNat = f.length ∧ t.frm.dev = f.getD 0 0 - 1 ∧
      ∀ k, k < 29 → ∃ u, exec (.rdreg (BitVec.ofNat 8 (0x40 + k))) t = .next u ∧
        u.rdata = f.getD (2 * k + 1) 0 ++ f.getD (2 * k) 0

/-! ## Variant B: PUSHBLK -/

/-- R52, R53, R162 and R201 (and the formulas of R203, R206 and R234): the trailer, the block bytes, the marker test, the
CRC span, and the device index, record type and payload, for every value of the parameters. -/
def Obligations.FrameFieldsAreTheSpecs : Prop :=
  ∀ (P : Params) (blk : Bus) (f : List Byte),
    (busBytes blk).length = 32 ∧ (∀ k, k < 32 → (busBytes blk)[k]? = some (blk.extractLsb' (8 * k) 8)) ∧
    (markerOkB P f = true ↔
      ∀ k : Fin 4, P.markerMaskB.getLsbD k.val = false ∨ f.getD k.val 0 = P.markerB[k]) ∧
    frameTrailer f = f.getD (f.length - 1) 0 ++ f.getD (f.length - 2) 0 ∧
    deviceIndex P f .A = ((f.getD 0 0).toNat : Int) - 1 ∧
    deviceIndex P f .B = ((f.getD 1 0).toNat : Int) - (P.devOriginB.toNat : Int) ∧
    frameRtype P f .A = f.getD 2 0 ∧
    frameRtype P f .B = (match P.rtypePosB with | .pos0 => f.getD 0 0 | .pos2 => f.getD 2 0 | .pos3 => f.getD 3 0) ∧
    frameCrc P f .A = crc crcTableA (f.take (f.length - 2)) ∧
    frameCrc P f .B = crc P.crcTableB (f.take (f.length - 2)) ∧
    framePayload f .A = (f.take (f.length - 2)).drop 3 ∧ framePayload f .B = (f.take (f.length - 2)).drop 4

/-- R160: PUSHBLK, word 0x30000000. Under variant B, in the order of its checks: a marker mismatch discards the block
whole, a device index out of range discards it without a CRC, and otherwise the verdict is on the 32 bytes of the
bus. Under variant A it is WRONG_PROFILE. Any other word with OP = 0x3 is illegal. -/
def Obligations.PushblkChecksInOrder : Prop :=
  decode 0x30000000 = .ok .pushblk ∧
  (∀ w : CmdWord, w.extractLsb' 28 4 = 0x3 → w ≠ 0x30000000 → ∃ e, decode w = .error e) ∧
  (∀ s : State, s.profile = .A →
    exec .pushblk s = .next { s with rdata := 0, events := [.wrongProfile 0x30000000], lastEvt := 0x9 }) ∧
  ∀ s : State, s.profile = .B →
    let f : List Byte := (List.range 32).map fun k => s.bus.extractLsb' (8 * k) 8
    let dev : Int := (f.getD 1 0).toNat - Config.params.devOriginB.toNat
    exec .pushblk s = .next
      (if markerOkB Config.params f = false then
        { s with rdata := 0, events := [.blkReject], lastEvt := 0x6 }
      else if dev < 0 ∨ (s.deviceCount.toNat : Int) ≤ dev then
        { s with rdata := 0, events := [.devRange dev], lastEvt := 0x5 }
      else verdict Config.params f .B [] s)

/-- Derived from R165 and R161: every PUSHBLK emits exactly one event. -/
def Obligations.PushblkEmitsOneEvent : Prop :=
  ∀ s t : State, exec .pushblk s = .next t → t.events.length = 1

/-! ## The validator and the latches -/

/-- R200, R207 and R234 (and the writes of R202): the validator's verdict on any candidate, for every value of the parameters,
inside a command that has emitted `before` and given no read data. -/
def Obligations.ValidatorGivesTheVerdict : Prop :=
  ∀ (P : Params) (f : List Byte) (prof : Profile) (before : List Event) (s : State),
    (validate P f prof { s with rdata := 0, events := before }).closeOutput = verdict P f prof before s

/-- Derived from R37, R38, R40 and R205: only an accepted frame or SRST changes the frame latch or the alarm latch,
and the alarm latch only when the accepted record type is 0x12. A rejected frame leaves both as they were. -/
def Obligations.LatchesChangeOnlyByAcceptance : Prop :=
  ∀ (i : Instr) (s t : State), exec i s = .next t → i ≠ .srst →
    (t.frm ≠ s.frm → ∃ d r f, t.events.getLast? = some (.frameOk d r f)) ∧
    (t.alm ≠ s.alm → ∃ d f, t.events.getLast? = some (.frameOk d 0x12 f))

/-- Derived from R25, R203 and R284: with DEVICE_COUNT = 0 no command accepts a frame. -/
def Obligations.NoDeviceNoAcceptance : Prop :=
  ∀ (i : Instr) (s t : State), s.deviceCount = 0 → exec i s = .next t → ∀ d r f, .frameOk d r f ∉ t.events

/-- Derived from R37, R38, R200, R207 and R234, as an invariant every step keeps: a valid frame latch holds a frame
of a legal shape that matches its CRC, with its device index and record type, zero-filled; a valid alarm latch holds
a whole payload; and after an alarm record both hold the same one. -/
def Obligations.EveryStepKeepsTheLatchesGenuine : Prop :=
  ∀ s t : State, LatchInv Config.params s → step s = .next t → LatchInv Config.params t

/-- Derived from R39 and R261, as an invariant every step keeps: LAST_EVT is a code the block can emit or NONE, and
the code of the last event of the last command. That the events of the last command stay in the state while no command
runs is the model's choice (log 2). -/
def Obligations.EveryStepKeepsTheEventInvariant : Prop :=
  ∀ s t : State, EventInv s → step s = .next t → EventInv t

/-! ## The alarm decoder -/

/-- Derived from R231: every alarm map of the model is well formed, and every well-formed map of the spec's form is a
map of the model with the same cell lists and the same labels. -/
def Obligations.AlarmMapsAreTheWellFormedOnes : Prop :=
  (∀ (n : Nat) (M : AlarmMap n),
    MapForm.wellFormed n { cells := mapCells M, label := mapLabel M } = true ∧
    ∀ c j i, j ∈ mapCells M c → mapLabel M j i = none) ∧
  (∀ (n : Nat) (F : MapForm), F.wellFormed n = true →
    (∀ c, mapCells (F.toMap n) c = F.cells c) ∧
    ∀ j i, j < n → i < 8 → (∀ c, j ∉ F.cells c) → mapLabel (F.toMap n) j i = F.label j i)

/-- Derived from R232: a label category's ranks are exactly its labelled bits, in bit-scan order; rank 8k+i of a cell
category is bit i of its k-th byte; and there are at most 8n ranks. -/
def Obligations.RankSequencesAreTheSpecs : Prop :=
  ∀ (n : Nat) (M : AlarmMap n),
    (∀ c : LabelCat,
      (∀ j i, (j, i) ∈ ranks M (.label c) ↔ ∃ id, mapLabel M j i = some (c, id)) ∧
      (ranks M (.label c)).Pairwise (fun x y => x.1 < y.1 ∨ (x.1 = y.1 ∧ x.2 < y.2))) ∧
    (∀ c : CellCat,
      (ranks M (.cell c)).length = 8 * (mapCells M c).length ∧
      ∀ k i, i < 8 → (ranks M (.cell c))[8 * k + i]? = ((mapCells M c)[k]?).map fun j => (j, i)) ∧
    ∀ c, (ranks M c).length ≤ 8 * n

/-- R235, with the selection of R236: bit r of a category's vector is the payload bit of rank r under the map of the
latched profile, while ALM_VALID = 1 and r is below the number of ranks, and 0 otherwise; OUT is the vector of the
category CAT numbers, and 0 for CAT 9 to 15. -/
def Obligations.SelectedVectorBits : Prop :=
  (∀ (P : Params) (a : AlarmLatch) (c : Category) (r : Nat),
    (categoryVector P a c).getLsbD r =
      (a.valid &&
        match (match a.prof with | .A => ranks P.alarmMapA c | .B => ranks P.alarmMapB c)[r]? with
        | some (j, i) => (a.p[j]?.getD 0).getLsbD i
        | none => false)) ∧
  ∀ (P : Params) (s : State),
    (9 ≤ s.cat.toNat → alarmOut P s = 0) ∧
    ∀ c : Category,
      s.cat.toNat = (match c with
        | .label .alarm => 0 | .label .protection => 1 | .label .sysstatus => 2 | .label .fet => 3
        | .cell .vlow => 4 | .cell .vhigh => 5 | .cell .tlow => 6 | .cell .thigh => 7 | .cell .bal => 8) →
      alarmOut P s = categoryVector P s.alm c

/-- Derived from R33 and R232: SEL_COUNT is the number of set ranks of the selected category, at most 208, so the
8-bit field of ALMSTAT holds it whole. -/
def Obligations.SelectedCountFitsItsField : Prop :=
  ∀ s : State, ∃ t, exec (.rdreg 0x0E) s = .next t ∧
    (t.rdata.extractLsb' 8 8).toNat = (List.range 256).countP (fun r => (alarmOut Config.params s).getLsbD r) ∧
    (t.rdata.extractLsb' 8 8).toNat ≤ 208 ∧ t.rdata.extractLsb' 0 8 = s.alm.dev

/-- Derived from R232, R237 and R238: the label list has one entry per set bit of the category vector, in ascending rank
order, and the entry of rank r is the id that the map of the latched profile gives the payload bit of rank r; the cell
list is strictly ascending and 1-based, and cell r+1 is in it exactly when bit r is set. -/
def Obligations.ObservedListsFollowTheVectors : Prop :=
  ∀ (P : Params) (a : AlarmLatch),
    (∀ c : CellCat, (cells P a c).Pairwise (· < ·) ∧ 0 ∉ cells P a c ∧
      ∀ r, r + 1 ∈ cells P a c ↔ (categoryVector P a (.cell c)).getLsbD r = true) ∧
    (∀ c : LabelCat, ∃ rs : List Nat, rs.Pairwise (· < ·) ∧
      (∀ r, r ∈ rs ↔ (categoryVector P a (.label c)).getLsbD r = true) ∧
      List.Forall₂
        (fun r id => ∃ j i,
          (match a.prof with
            | .A => (ranks P.alarmMapA (.label c))[r]? = some (j, i) ∧ mapLabel P.alarmMapA j i = some (c, id)
            | .B => (ranks P.alarmMapB (.label c))[r]? = some (j, i) ∧ mapLabel P.alarmMapB j i = some (c, id)))
        rs (labels P a c))

/-- Derived from R240: of a label byte whose eight bits all carry labels of one category, 0x01 with no other bit of
that category set shows exactly the label of bit 0, and 0xFF shows its eight labels in ascending bit order, which are
all of them when it is the category's only byte. -/
def Obligations.LabelByteShowsItsLabels : Prop :=
  ∀ (P : Params) (a : AlarmLatch) (c : LabelCat) (j : Nat) (ids : Nat → LabelId), a.valid = true →
    (∀ i, i < 8 → profileLabel P a.prof j i = some (c, ids i)) →
    ((a.p[j]?.getD 0 = 0x01 ∧
        (∀ j' i', j' ≠ j → (∃ id, profileLabel P a.prof j' i' = some (c, id)) →
          (a.p[j']?.getD 0).getLsbD i' = false) → labels P a c = [ids 0]) ∧
     (a.p[j]?.getD 0 = 0xFF →
        ((List.range 8).map ids).Sublist (labels P a c) ∧
        ((∀ j' i' id, profileLabel P a.prof j' i' = some (c, id) → j' = j) →
          labels P a c = (List.range 8).map ids)))

/-- Derived from R239: the composition of a low and a high list. -/
def Obligations.CompositionRule : Prop :=
  ∀ low high : List Nat,
    (low ≠ [] → high ≠ [] → compose low high = low.map .item ++ [.sep] ++ high.map .item) ∧
    (low ≠ [] → high = [] → compose low high = low.map .item) ∧
    (low = [] → high ≠ [] → compose low high = high.map .item) ∧
    (low = [] → high = [] → compose low high = [])

/-- Derived from R241: the alarm output reads depend on the alarm latch and CAT alone. -/
def Obligations.AlarmReadsDependOnLatchAndCatOnly : Prop :=
  ∀ (s s' : State) (a : BitVec 8), s.alm = s'.alm → s.cat = s'.cat →
    (a.toNat = 0x0E ∨ (0x20 ≤ a.toNat ∧ a.toNat ≤ 0x2F)) →
    ∃ t t', exec (.rdreg a) s = .next t ∧ exec (.rdreg a) s' = .next t' ∧ t.rdata = t'.rdata

/-- Derived from R280, and the model's choice (log 1, log 4): a release of the reset input that was not asserted takes
that input and changes nothing else. -/
def Obligations.ReleaseWithoutResetChangesNothing : Prop :=
  ∀ (s : State) (rest : List HostInput), s.resetLine = false → s.inputs = .resetLine false :: rest →
    step s = .next { s with inputs := rest }
end

