-- ==== Sys2Proof/Laws/Alarm.lean ====
section
/-! SUPPORT. The alarm decoder's lists and vectors, one lemma per definition (44_alarm_decoder.md). -/

namespace Sys2Proof.Machine

/-- A bit list as a number has the list's bits. -/
theorem bitsToNat_testBit (l : List Bool) (r : Nat) : (bitsToNat l).testBit r = l[r]?.getD false := by
  induction l generalizing r with
  | nil => simp [bitsToNat]
  | cons b rest ih =>
    cases r with
    | zero => cases b <;> simp [bitsToNat]
    | succ r =>
      rw [bitsToNat, Nat.testBit_succ]
      have : (b.toNat + 2 * bitsToNat rest) / 2 = bitsToNat rest := by cases b <;> (simp; try omega)
      rw [this, ih]
      simp

/-- The count over the low bits is the count over their indexes. -/
theorem countOnes_eq_countP (v : BitVec 256) (n : Nat) :
    countOnes v n = (List.range n).countP fun r => v.getLsbD r := by
  induction n with
  | zero => rfl
  | succ n ih =>
    rw [countOnes, ih, List.range_succ, List.countP_append]
    cases h : v.getLsbD n <;> simp [h, Nat.add_comm]

section
variable {n : Nat} (M : AlarmMap n)

theorem inCells_lt {c : CellCat} {j : Nat} (h : inCells M c j = true) : j < n := by
  unfold inCells at h
  split at h
  · assumption
  · cases h

theorem mem_mapCells {c : CellCat} {j : Nat} : j ∈ mapCells M c ↔ inCells M c j = true := by
  simp only [mapCells, List.mem_filter, List.mem_range, and_iff_right_iff_imp]
  exact inCells_lt M

theorem mapCells_sorted (c : CellCat) : (mapCells M c).Pairwise (· < ·) := List.pairwise_lt_range.filter _

theorem mapCells_length_le (c : CellCat) : (mapCells M c).length ≤ n := by
  simpa [mapCells] using List.length_filter_le (inCells M c) (List.range n)

theorem mapLabel_bounds {j i : Nat} {x : LabelCat × LabelId} (h : mapLabel M j i = some x) : j < n ∧ i < 8 := by
  unfold mapLabel at h
  split at h
  · assumption
  · cases h

/-- A cell byte has no label. -/
theorem mapLabel_of_cell {c : CellCat} {j : Nat} (h : inCells M c j = true) (i : Nat) : mapLabel M j i = none := by
  unfold inCells at h
  unfold mapLabel
  split at h
  · split at h
    · split
      · simp_all
      · rfl
    · cases h
  · cases h

theorem inLabels_iff {c : LabelCat} {pos : Nat × Nat} :
    inLabels M c pos = true ↔ ∃ id, mapLabel M pos.1 pos.2 = some (c, id) := by
  unfold inLabels
  cases h : mapLabel M pos.1 pos.2 with
  | none => simp
  | some x => obtain ⟨d, id⟩ := x; simp

theorem mem_byteBits {j : Nat} {pos : Nat × Nat} : pos ∈ byteBits j ↔ pos.1 = j ∧ pos.2 < 8 := by
  obtain ⟨a, b⟩ := pos
  simp [byteBits, and_comm, eq_comm]

/-- A label category's ranks are its labelled bits. -/
theorem mem_ranks_label {c : LabelCat} {pos : Nat × Nat} :
    pos ∈ ranks M (.label c) ↔ ∃ id, mapLabel M pos.1 pos.2 = some (c, id) := by
  simp only [ranks, List.mem_filter, List.mem_flatMap, List.mem_range, mem_byteBits, inLabels_iff]
  refine ⟨And.right, fun h => ⟨?_, h⟩⟩
  obtain ⟨_, h⟩ := h
  exact ⟨pos.1, (mapLabel_bounds M h).1, rfl, (mapLabel_bounds M h).2⟩

theorem byteBits_length (j : Nat) : (byteBits j).length = 8 := by simp [byteBits]

theorem flatMap_byteBits_length (l : List Nat) : (l.flatMap byteBits).length = 8 * l.length := by
  induction l with
  | nil => rfl
  | cons j l ih => rw [List.flatMap_cons, List.length_append, byteBits_length, ih, List.length_cons]; omega

/-- Entry 8k+i of the bits of a byte list is bit i of its k-th byte. -/
theorem flatMap_byteBits_get (l : List Nat) (k i : Nat) (h : i < 8) :
    (l.flatMap byteBits)[8 * k + i]? = l[k]?.map fun j => (j, i) := by
  induction l generalizing k with
  | nil => simp
  | cons j l ih =>
    rw [List.flatMap_cons]
    cases k with
    | zero =>
      rw [List.getElem?_append_left (by rw [byteBits_length]; omega)]
      simp [byteBits, h]
    | succ k =>
      rw [List.getElem?_append_right (by rw [byteBits_length]; omega), byteBits_length]
      have : 8 * (k + 1) + i - 8 = 8 * k + i := by omega
      rw [this, ih]
      simp

theorem ranks_length_le (c : Category) : (ranks M c).length ≤ 8 * n := by
  cases c with
  | label c =>
    have := List.length_filter_le (inLabels M c) ((List.range n).flatMap byteBits)
    rw [flatMap_byteBits_length, List.length_range] at this
    exact this
  | cell c =>
    show ((mapCells M c).flatMap byteBits).length ≤ 8 * n
    rw [flatMap_byteBits_length]
    have := mapCells_length_le M c
    omega

end

/-- R232: no category has more than 208 ranks. -/
theorem profileRanks_length_le (P : Params) (prof : Profile) (c : Category) :
    (profileRanks P prof c).length ≤ 208 := by
  cases prof with
  | A => exact Nat.le_trans (ranks_length_le P.alarmMapA c) (by decide)
  | B => exact ranks_length_le P.alarmMapB c

/-- Bit r of a category vector. -/
theorem categoryVector_bit (P : Params) (a : AlarmLatch) (c : Category) (r : Nat) :
    (categoryVector P a c).getLsbD r =
      (a.valid && ((profileRanks P a.prof c)[r]?.map (payloadBit a.p)).getD false) := by
  unfold categoryVector
  cases a.valid with
  | false => simp
  | true =>
    rw [if_pos rfl, BitVec.getLsbD_ofNat, bitsToNat_testBit, List.getElem?_map, Bool.true_and]
    by_cases h : r < 256
    · simp [h]
    · have hr : (profileRanks P a.prof c)[r]? = none := by
        rw [List.getElem?_eq_none]
        have := profileRanks_length_le P a.prof c
        omega
      simp [hr]

theorem mem_setRanks {P : Params} {a : AlarmLatch} {c : Category} {r : Nat} :
    r ∈ setRanks P a c ↔ (categoryVector P a c).getLsbD r = true := by
  simp only [setRanks, List.mem_filter, List.mem_range, and_iff_right_iff_imp]
  intro h
  by_contra hr
  rw [categoryVector_bit, List.getElem?_eq_none (by omega)] at h
  simp at h

theorem setRanks_sorted (P : Params) (a : AlarmLatch) (c : Category) : (setRanks P a c).Pairwise (· < ·) :=
  List.pairwise_lt_range.filter _

end Sys2Proof.Machine
end

