-- ==== Sys2Proof/Laws/Assembler.lean ====
section
/-! SUPPORT. The block bus value of a byte list, byte by byte (20_memory.md R53). -/

namespace Sys2Proof.Machine

theorem blockBus_lt {bs : List Nat} (h : ∀ b ∈ bs, b < 256) : blockBus bs < 256 ^ bs.length := by
  induction bs with
  | nil => decide
  | cons b l ih =>
    have hb := h b (by simp)
    have hl := ih fun x hx => h x (by simp [hx])
    rw [blockBus, List.length_cons, pow_succ]
    omega

/-- Byte k of the bus value is the k-th byte of the list. -/
theorem blockBus_byte {bs : List Nat} (h : ∀ b ∈ bs, b < 256) (k : Nat) :
    blockBus bs / 2 ^ (8 * k) % 256 = bs.getD k 0 := by
  induction bs generalizing k with
  | nil => simp [blockBus]
  | cons b l ih =>
    have hb := h b (by simp)
    cases k with
    | zero => simp [blockBus]; omega
    | succ k =>
      have hk := ih (fun x hx => h x (by simp [hx])) k
      have shifted : (b + 256 * blockBus l) / 2 ^ 8 = blockBus l := by omega
      rw [blockBus, Nat.mul_add, Nat.mul_one, Nat.add_comm (8 * k), pow_add, ← Nat.div_div_eq_div_mul, shifted, hk]
      simp

end Sys2Proof.Machine
end

