-- ==== Sys2Proof/Laws/State.lean ====
section
/-! SUPPORT. One lemma per field per update of the state. -/

namespace Sys2Proof.Machine.State

variable (s : State)

@[simp] theorem setProfile_profile (p : Profile) : (s.setProfile p).profile = p := rfl
@[simp] theorem setProfile_deviceCount (p : Profile) : (s.setProfile p).deviceCount = s.deviceCount := rfl
@[simp] theorem setProfile_cat (p : Profile) : (s.setProfile p).cat = s.cat := rfl
@[simp] theorem setProfile_buf (p : Profile) : (s.setProfile p).buf = s.buf := rfl
@[simp] theorem setProfile_frm (p : Profile) : (s.setProfile p).frm = s.frm := rfl
@[simp] theorem setProfile_alm (p : Profile) : (s.setProfile p).alm = s.alm := rfl
@[simp] theorem setProfile_crcCalc (p : Profile) : (s.setProfile p).crcCalc = s.crcCalc := rfl
@[simp] theorem setProfile_crcRecv (p : Profile) : (s.setProfile p).crcRecv = s.crcRecv := rfl
@[simp] theorem setProfile_crcAcc (p : Profile) : (s.setProfile p).crcAcc = s.crcAcc := rfl
@[simp] theorem setProfile_lastEvt (p : Profile) : (s.setProfile p).lastEvt = s.lastEvt := rfl
@[simp] theorem setProfile_inputs (p : Profile) : (s.setProfile p).inputs = s.inputs := rfl
@[simp] theorem setProfile_resetLine (p : Profile) : (s.setProfile p).resetLine = s.resetLine := rfl
@[simp] theorem setProfile_bus (p : Profile) : (s.setProfile p).bus = s.bus := rfl
@[simp] theorem setProfile_rdata (p : Profile) : (s.setProfile p).rdata = s.rdata := rfl
@[simp] theorem setProfile_events (p : Profile) : (s.setProfile p).events = s.events := rfl

@[simp] theorem setDeviceCount_profile (n : BitVec 8) : (s.setDeviceCount n).profile = s.profile := rfl
@[simp] theorem setDeviceCount_deviceCount (n : BitVec 8) : (s.setDeviceCount n).deviceCount = n := rfl
@[simp] theorem setDeviceCount_cat (n : BitVec 8) : (s.setDeviceCount n).cat = s.cat := rfl
@[simp] theorem setDeviceCount_buf (n : BitVec 8) : (s.setDeviceCount n).buf = s.buf := rfl
@[simp] theorem setDeviceCount_frm (n : BitVec 8) : (s.setDeviceCount n).frm = s.frm := rfl
@[simp] theorem setDeviceCount_alm (n : BitVec 8) : (s.setDeviceCount n).alm = s.alm := rfl
@[simp] theorem setDeviceCount_crcCalc (n : BitVec 8) : (s.setDeviceCount n).crcCalc = s.crcCalc := rfl
@[simp] theorem setDeviceCount_crcRecv (n : BitVec 8) : (s.setDeviceCount n).crcRecv = s.crcRecv := rfl
@[simp] theorem setDeviceCount_crcAcc (n : BitVec 8) : (s.setDeviceCount n).crcAcc = s.crcAcc := rfl
@[simp] theorem setDeviceCount_lastEvt (n : BitVec 8) : (s.setDeviceCount n).lastEvt = s.lastEvt := rfl
@[simp] theorem setDeviceCount_inputs (n : BitVec 8) : (s.setDeviceCount n).inputs = s.inputs := rfl
@[simp] theorem setDeviceCount_resetLine (n : BitVec 8) : (s.setDeviceCount n).resetLine = s.resetLine := rfl
@[simp] theorem setDeviceCount_bus (n : BitVec 8) : (s.setDeviceCount n).bus = s.bus := rfl
@[simp] theorem setDeviceCount_rdata (n : BitVec 8) : (s.setDeviceCount n).rdata = s.rdata := rfl
@[simp] theorem setDeviceCount_events (n : BitVec 8) : (s.setDeviceCount n).events = s.events := rfl

@[simp] theorem setCat_profile (c : BitVec 4) : (s.setCat c).profile = s.profile := rfl
@[simp] theorem setCat_deviceCount (c : BitVec 4) : (s.setCat c).deviceCount = s.deviceCount := rfl
@[simp] theorem setCat_cat (c : BitVec 4) : (s.setCat c).cat = c := rfl
@[simp] theorem setCat_buf (c : BitVec 4) : (s.setCat c).buf = s.buf := rfl
@[simp] theorem setCat_frm (c : BitVec 4) : (s.setCat c).frm = s.frm := rfl
@[simp] theorem setCat_alm (c : BitVec 4) : (s.setCat c).alm = s.alm := rfl
@[simp] theorem setCat_crcCalc (c : BitVec 4) : (s.setCat c).crcCalc = s.crcCalc := rfl
@[simp] theorem setCat_crcRecv (c : BitVec 4) : (s.setCat c).crcRecv = s.crcRecv := rfl
@[simp] theorem setCat_crcAcc (c : BitVec 4) : (s.setCat c).crcAcc = s.crcAcc := rfl
@[simp] theorem setCat_lastEvt (c : BitVec 4) : (s.setCat c).lastEvt = s.lastEvt := rfl
@[simp] theorem setCat_inputs (c : BitVec 4) : (s.setCat c).inputs = s.inputs := rfl
@[simp] theorem setCat_resetLine (c : BitVec 4) : (s.setCat c).resetLine = s.resetLine := rfl
@[simp] theorem setCat_bus (c : BitVec 4) : (s.setCat c).bus = s.bus := rfl
@[simp] theorem setCat_rdata (c : BitVec 4) : (s.setCat c).rdata = s.rdata := rfl
@[simp] theorem setCat_events (c : BitVec 4) : (s.setCat c).events = s.events := rfl

@[simp] theorem setBuf_profile (b : List Byte) : (s.setBuf b).profile = s.profile := rfl
@[simp] theorem setBuf_deviceCount (b : List Byte) : (s.setBuf b).deviceCount = s.deviceCount := rfl
@[simp] theorem setBuf_cat (b : List Byte) : (s.setBuf b).cat = s.cat := rfl
@[simp] theorem setBuf_buf (b : List Byte) : (s.setBuf b).buf = b := rfl
@[simp] theorem setBuf_frm (b : List Byte) : (s.setBuf b).frm = s.frm := rfl
@[simp] theorem setBuf_alm (b : List Byte) : (s.setBuf b).alm = s.alm := rfl
@[simp] theorem setBuf_crcCalc (b : List Byte) : (s.setBuf b).crcCalc = s.crcCalc := rfl
@[simp] theorem setBuf_crcRecv (b : List Byte) : (s.setBuf b).crcRecv = s.crcRecv := rfl
@[simp] theorem setBuf_crcAcc (b : List Byte) : (s.setBuf b).crcAcc = s.crcAcc := rfl
@[simp] theorem setBuf_lastEvt (b : List Byte) : (s.setBuf b).lastEvt = s.lastEvt := rfl
@[simp] theorem setBuf_inputs (b : List Byte) : (s.setBuf b).inputs = s.inputs := rfl
@[simp] theorem setBuf_resetLine (b : List Byte) : (s.setBuf b).resetLine = s.resetLine := rfl
@[simp] theorem setBuf_bus (b : List Byte) : (s.setBuf b).bus = s.bus := rfl
@[simp] theorem setBuf_rdata (b : List Byte) : (s.setBuf b).rdata = s.rdata := rfl
@[simp] theorem setBuf_events (b : List Byte) : (s.setBuf b).events = s.events := rfl

@[simp] theorem setFrm_profile (l : FrameLatch) : (s.setFrm l).profile = s.profile := rfl
@[simp] theorem setFrm_deviceCount (l : FrameLatch) : (s.setFrm l).deviceCount = s.deviceCount := rfl
@[simp] theorem setFrm_cat (l : FrameLatch) : (s.setFrm l).cat = s.cat := rfl
@[simp] theorem setFrm_buf (l : FrameLatch) : (s.setFrm l).buf = s.buf := rfl
@[simp] theorem setFrm_frm (l : FrameLatch) : (s.setFrm l).frm = l := rfl
@[simp] theorem setFrm_alm (l : FrameLatch) : (s.setFrm l).alm = s.alm := rfl
@[simp] theorem setFrm_crcCalc (l : FrameLatch) : (s.setFrm l).crcCalc = s.crcCalc := rfl
@[simp] theorem setFrm_crcRecv (l : FrameLatch) : (s.setFrm l).crcRecv = s.crcRecv := rfl
@[simp] theorem setFrm_crcAcc (l : FrameLatch) : (s.setFrm l).crcAcc = s.crcAcc := rfl
@[simp] theorem setFrm_lastEvt (l : FrameLatch) : (s.setFrm l).lastEvt = s.lastEvt := rfl
@[simp] theorem setFrm_inputs (l : FrameLatch) : (s.setFrm l).inputs = s.inputs := rfl
@[simp] theorem setFrm_resetLine (l : FrameLatch) : (s.setFrm l).resetLine = s.resetLine := rfl
@[simp] theorem setFrm_bus (l : FrameLatch) : (s.setFrm l).bus = s.bus := rfl
@[simp] theorem setFrm_rdata (l : FrameLatch) : (s.setFrm l).rdata = s.rdata := rfl
@[simp] theorem setFrm_events (l : FrameLatch) : (s.setFrm l).events = s.events := rfl

@[simp] theorem setAlm_profile (l : AlarmLatch) : (s.setAlm l).profile = s.profile := rfl
@[simp] theorem setAlm_deviceCount (l : AlarmLatch) : (s.setAlm l).deviceCount = s.deviceCount := rfl
@[simp] theorem setAlm_cat (l : AlarmLatch) : (s.setAlm l).cat = s.cat := rfl
@[simp] theorem setAlm_buf (l : AlarmLatch) : (s.setAlm l).buf = s.buf := rfl
@[simp] theorem setAlm_frm (l : AlarmLatch) : (s.setAlm l).frm = s.frm := rfl
@[simp] theorem setAlm_alm (l : AlarmLatch) : (s.setAlm l).alm = l := rfl
@[simp] theorem setAlm_crcCalc (l : AlarmLatch) : (s.setAlm l).crcCalc = s.crcCalc := rfl
@[simp] theorem setAlm_crcRecv (l : AlarmLatch) : (s.setAlm l).crcRecv = s.crcRecv := rfl
@[simp] theorem setAlm_crcAcc (l : AlarmLatch) : (s.setAlm l).crcAcc = s.crcAcc := rfl
@[simp] theorem setAlm_lastEvt (l : AlarmLatch) : (s.setAlm l).lastEvt = s.lastEvt := rfl
@[simp] theorem setAlm_inputs (l : AlarmLatch) : (s.setAlm l).inputs = s.inputs := rfl
@[simp] theorem setAlm_resetLine (l : AlarmLatch) : (s.setAlm l).resetLine = s.resetLine := rfl
@[simp] theorem setAlm_bus (l : AlarmLatch) : (s.setAlm l).bus = s.bus := rfl
@[simp] theorem setAlm_rdata (l : AlarmLatch) : (s.setAlm l).rdata = s.rdata := rfl
@[simp] theorem setAlm_events (l : AlarmLatch) : (s.setAlm l).events = s.events := rfl

@[simp] theorem setCrcCheck_profile (x y : Half) : (s.setCrcCheck x y).profile = s.profile := rfl
@[simp] theorem setCrcCheck_deviceCount (x y : Half) : (s.setCrcCheck x y).deviceCount = s.deviceCount := rfl
@[simp] theorem setCrcCheck_cat (x y : Half) : (s.setCrcCheck x y).cat = s.cat := rfl
@[simp] theorem setCrcCheck_buf (x y : Half) : (s.setCrcCheck x y).buf = s.buf := rfl
@[simp] theorem setCrcCheck_frm (x y : Half) : (s.setCrcCheck x y).frm = s.frm := rfl
@[simp] theorem setCrcCheck_alm (x y : Half) : (s.setCrcCheck x y).alm = s.alm := rfl
@[simp] theorem setCrcCheck_crcCalc (x y : Half) : (s.setCrcCheck x y).crcCalc = x := rfl
@[simp] theorem setCrcCheck_crcRecv (x y : Half) : (s.setCrcCheck x y).crcRecv = y := rfl
@[simp] theorem setCrcCheck_crcAcc (x y : Half) : (s.setCrcCheck x y).crcAcc = s.crcAcc := rfl
@[simp] theorem setCrcCheck_lastEvt (x y : Half) : (s.setCrcCheck x y).lastEvt = s.lastEvt := rfl
@[simp] theorem setCrcCheck_inputs (x y : Half) : (s.setCrcCheck x y).inputs = s.inputs := rfl
@[simp] theorem setCrcCheck_resetLine (x y : Half) : (s.setCrcCheck x y).resetLine = s.resetLine := rfl
@[simp] theorem setCrcCheck_bus (x y : Half) : (s.setCrcCheck x y).bus = s.bus := rfl
@[simp] theorem setCrcCheck_rdata (x y : Half) : (s.setCrcCheck x y).rdata = s.rdata := rfl
@[simp] theorem setCrcCheck_events (x y : Half) : (s.setCrcCheck x y).events = s.events := rfl

@[simp] theorem setCrcAcc_profile (v : Half) : (s.setCrcAcc v).profile = s.profile := rfl
@[simp] theorem setCrcAcc_deviceCount (v : Half) : (s.setCrcAcc v).deviceCount = s.deviceCount := rfl
@[simp] theorem setCrcAcc_cat (v : Half) : (s.setCrcAcc v).cat = s.cat := rfl
@[simp] theorem setCrcAcc_buf (v : Half) : (s.setCrcAcc v).buf = s.buf := rfl
@[simp] theorem setCrcAcc_frm (v : Half) : (s.setCrcAcc v).frm = s.frm := rfl
@[simp] theorem setCrcAcc_alm (v : Half) : (s.setCrcAcc v).alm = s.alm := rfl
@[simp] theorem setCrcAcc_crcCalc (v : Half) : (s.setCrcAcc v).crcCalc = s.crcCalc := rfl
@[simp] theorem setCrcAcc_crcRecv (v : Half) : (s.setCrcAcc v).crcRecv = s.crcRecv := rfl
@[simp] theorem setCrcAcc_crcAcc (v : Half) : (s.setCrcAcc v).crcAcc = v := rfl
@[simp] theorem setCrcAcc_lastEvt (v : Half) : (s.setCrcAcc v).lastEvt = s.lastEvt := rfl
@[simp] theorem setCrcAcc_inputs (v : Half) : (s.setCrcAcc v).inputs = s.inputs := rfl
@[simp] theorem setCrcAcc_resetLine (v : Half) : (s.setCrcAcc v).resetLine = s.resetLine := rfl
@[simp] theorem setCrcAcc_bus (v : Half) : (s.setCrcAcc v).bus = s.bus := rfl
@[simp] theorem setCrcAcc_rdata (v : Half) : (s.setCrcAcc v).rdata = s.rdata := rfl
@[simp] theorem setCrcAcc_events (v : Half) : (s.setCrcAcc v).events = s.events := rfl

@[simp] theorem setLastEvt_profile (c : BitVec 4) : (s.setLastEvt c).profile = s.profile := rfl
@[simp] theorem setLastEvt_deviceCount (c : BitVec 4) : (s.setLastEvt c).deviceCount = s.deviceCount := rfl
@[simp] theorem setLastEvt_cat (c : BitVec 4) : (s.setLastEvt c).cat = s.cat := rfl
@[simp] theorem setLastEvt_buf (c : BitVec 4) : (s.setLastEvt c).buf = s.buf := rfl
@[simp] theorem setLastEvt_frm (c : BitVec 4) : (s.setLastEvt c).frm = s.frm := rfl
@[simp] theorem setLastEvt_alm (c : BitVec 4) : (s.setLastEvt c).alm = s.alm := rfl
@[simp] theorem setLastEvt_crcCalc (c : BitVec 4) : (s.setLastEvt c).crcCalc = s.crcCalc := rfl
@[simp] theorem setLastEvt_crcRecv (c : BitVec 4) : (s.setLastEvt c).crcRecv = s.crcRecv := rfl
@[simp] theorem setLastEvt_crcAcc (c : BitVec 4) : (s.setLastEvt c).crcAcc = s.crcAcc := rfl
@[simp] theorem setLastEvt_lastEvt (c : BitVec 4) : (s.setLastEvt c).lastEvt = c := rfl
@[simp] theorem setLastEvt_inputs (c : BitVec 4) : (s.setLastEvt c).inputs = s.inputs := rfl
@[simp] theorem setLastEvt_resetLine (c : BitVec 4) : (s.setLastEvt c).resetLine = s.resetLine := rfl
@[simp] theorem setLastEvt_bus (c : BitVec 4) : (s.setLastEvt c).bus = s.bus := rfl
@[simp] theorem setLastEvt_rdata (c : BitVec 4) : (s.setLastEvt c).rdata = s.rdata := rfl
@[simp] theorem setLastEvt_events (c : BitVec 4) : (s.setLastEvt c).events = s.events := rfl

@[simp] theorem setInputs_profile (l : List HostInput) : (s.setInputs l).profile = s.profile := rfl
@[simp] theorem setInputs_deviceCount (l : List HostInput) : (s.setInputs l).deviceCount = s.deviceCount := rfl
@[simp] theorem setInputs_cat (l : List HostInput) : (s.setInputs l).cat = s.cat := rfl
@[simp] theorem setInputs_buf (l : List HostInput) : (s.setInputs l).buf = s.buf := rfl
@[simp] theorem setInputs_frm (l : List HostInput) : (s.setInputs l).frm = s.frm := rfl
@[simp] theorem setInputs_alm (l : List HostInput) : (s.setInputs l).alm = s.alm := rfl
@[simp] theorem setInputs_crcCalc (l : List HostInput) : (s.setInputs l).crcCalc = s.crcCalc := rfl
@[simp] theorem setInputs_crcRecv (l : List HostInput) : (s.setInputs l).crcRecv = s.crcRecv := rfl
@[simp] theorem setInputs_crcAcc (l : List HostInput) : (s.setInputs l).crcAcc = s.crcAcc := rfl
@[simp] theorem setInputs_lastEvt (l : List HostInput) : (s.setInputs l).lastEvt = s.lastEvt := rfl
@[simp] theorem setInputs_inputs (l : List HostInput) : (s.setInputs l).inputs = l := rfl
@[simp] theorem setInputs_resetLine (l : List HostInput) : (s.setInputs l).resetLine = s.resetLine := rfl
@[simp] theorem setInputs_bus (l : List HostInput) : (s.setInputs l).bus = s.bus := rfl
@[simp] theorem setInputs_rdata (l : List HostInput) : (s.setInputs l).rdata = s.rdata := rfl
@[simp] theorem setInputs_events (l : List HostInput) : (s.setInputs l).events = s.events := rfl

@[simp] theorem setResetLine_profile (v : Bool) : (s.setResetLine v).profile = s.profile := rfl
@[simp] theorem setResetLine_deviceCount (v : Bool) : (s.setResetLine v).deviceCount = s.deviceCount := rfl
@[simp] theorem setResetLine_cat (v : Bool) : (s.setResetLine v).cat = s.cat := rfl
@[simp] theorem setResetLine_buf (v : Bool) : (s.setResetLine v).buf = s.buf := rfl
@[simp] theorem setResetLine_frm (v : Bool) : (s.setResetLine v).frm = s.frm := rfl
@[simp] theorem setResetLine_alm (v : Bool) : (s.setResetLine v).alm = s.alm := rfl
@[simp] theorem setResetLine_crcCalc (v : Bool) : (s.setResetLine v).crcCalc = s.crcCalc := rfl
@[simp] theorem setResetLine_crcRecv (v : Bool) : (s.setResetLine v).crcRecv = s.crcRecv := rfl
@[simp] theorem setResetLine_crcAcc (v : Bool) : (s.setResetLine v).crcAcc = s.crcAcc := rfl
@[simp] theorem setResetLine_lastEvt (v : Bool) : (s.setResetLine v).lastEvt = s.lastEvt := rfl
@[simp] theorem setResetLine_inputs (v : Bool) : (s.setResetLine v).inputs = s.inputs := rfl
@[simp] theorem setResetLine_resetLine (v : Bool) : (s.setResetLine v).resetLine = v := rfl
@[simp] theorem setResetLine_bus (v : Bool) : (s.setResetLine v).bus = s.bus := rfl
@[simp] theorem setResetLine_rdata (v : Bool) : (s.setResetLine v).rdata = s.rdata := rfl
@[simp] theorem setResetLine_events (v : Bool) : (s.setResetLine v).events = s.events := rfl

@[simp] theorem setBus_profile (b : Bus) : (s.setBus b).profile = s.profile := rfl
@[simp] theorem setBus_deviceCount (b : Bus) : (s.setBus b).deviceCount = s.deviceCount := rfl
@[simp] theorem setBus_cat (b : Bus) : (s.setBus b).cat = s.cat := rfl
@[simp] theorem setBus_buf (b : Bus) : (s.setBus b).buf = s.buf := rfl
@[simp] theorem setBus_frm (b : Bus) : (s.setBus b).frm = s.frm := rfl
@[simp] theorem setBus_alm (b : Bus) : (s.setBus b).alm = s.alm := rfl
@[simp] theorem setBus_crcCalc (b : Bus) : (s.setBus b).crcCalc = s.crcCalc := rfl
@[simp] theorem setBus_crcRecv (b : Bus) : (s.setBus b).crcRecv = s.crcRecv := rfl
@[simp] theorem setBus_crcAcc (b : Bus) : (s.setBus b).crcAcc = s.crcAcc := rfl
@[simp] theorem setBus_lastEvt (b : Bus) : (s.setBus b).lastEvt = s.lastEvt := rfl
@[simp] theorem setBus_inputs (b : Bus) : (s.setBus b).inputs = s.inputs := rfl
@[simp] theorem setBus_resetLine (b : Bus) : (s.setBus b).resetLine = s.resetLine := rfl
@[simp] theorem setBus_bus (b : Bus) : (s.setBus b).bus = b := rfl
@[simp] theorem setBus_rdata (b : Bus) : (s.setBus b).rdata = s.rdata := rfl
@[simp] theorem setBus_events (b : Bus) : (s.setBus b).events = s.events := rfl

@[simp] theorem setRdata_profile (v : Half) : (s.setRdata v).profile = s.profile := rfl
@[simp] theorem setRdata_deviceCount (v : Half) : (s.setRdata v).deviceCount = s.deviceCount := rfl
@[simp] theorem setRdata_cat (v : Half) : (s.setRdata v).cat = s.cat := rfl
@[simp] theorem setRdata_buf (v : Half) : (s.setRdata v).buf = s.buf := rfl
@[simp] theorem setRdata_frm (v : Half) : (s.setRdata v).frm = s.frm := rfl
@[simp] theorem setRdata_alm (v : Half) : (s.setRdata v).alm = s.alm := rfl
@[simp] theorem setRdata_crcCalc (v : Half) : (s.setRdata v).crcCalc = s.crcCalc := rfl
@[simp] theorem setRdata_crcRecv (v : Half) : (s.setRdata v).crcRecv = s.crcRecv := rfl
@[simp] theorem setRdata_crcAcc (v : Half) : (s.setRdata v).crcAcc = s.crcAcc := rfl
@[simp] theorem setRdata_lastEvt (v : Half) : (s.setRdata v).lastEvt = s.lastEvt := rfl
@[simp] theorem setRdata_inputs (v : Half) : (s.setRdata v).inputs = s.inputs := rfl
@[simp] theorem setRdata_resetLine (v : Half) : (s.setRdata v).resetLine = s.resetLine := rfl
@[simp] theorem setRdata_bus (v : Half) : (s.setRdata v).bus = s.bus := rfl
@[simp] theorem setRdata_rdata (v : Half) : (s.setRdata v).rdata = v := rfl
@[simp] theorem setRdata_events (v : Half) : (s.setRdata v).events = s.events := rfl

@[simp] theorem setEvents_profile (l : List Event) : (s.setEvents l).profile = s.profile := rfl
@[simp] theorem setEvents_deviceCount (l : List Event) : (s.setEvents l).deviceCount = s.deviceCount := rfl
@[simp] theorem setEvents_cat (l : List Event) : (s.setEvents l).cat = s.cat := rfl
@[simp] theorem setEvents_buf (l : List Event) : (s.setEvents l).buf = s.buf := rfl
@[simp] theorem setEvents_frm (l : List Event) : (s.setEvents l).frm = s.frm := rfl
@[simp] theorem setEvents_alm (l : List Event) : (s.setEvents l).alm = s.alm := rfl
@[simp] theorem setEvents_crcCalc (l : List Event) : (s.setEvents l).crcCalc = s.crcCalc := rfl
@[simp] theorem setEvents_crcRecv (l : List Event) : (s.setEvents l).crcRecv = s.crcRecv := rfl
@[simp] theorem setEvents_crcAcc (l : List Event) : (s.setEvents l).crcAcc = s.crcAcc := rfl
@[simp] theorem setEvents_lastEvt (l : List Event) : (s.setEvents l).lastEvt = s.lastEvt := rfl
@[simp] theorem setEvents_inputs (l : List Event) : (s.setEvents l).inputs = s.inputs := rfl
@[simp] theorem setEvents_resetLine (l : List Event) : (s.setEvents l).resetLine = s.resetLine := rfl
@[simp] theorem setEvents_bus (l : List Event) : (s.setEvents l).bus = s.bus := rfl
@[simp] theorem setEvents_rdata (l : List Event) : (s.setEvents l).rdata = s.rdata := rfl
@[simp] theorem setEvents_events (l : List Event) : (s.setEvents l).events = l := rfl

@[simp] theorem emit_profile (e : Event) : (s.emit e).profile = s.profile := rfl
@[simp] theorem emit_deviceCount (e : Event) : (s.emit e).deviceCount = s.deviceCount := rfl
@[simp] theorem emit_cat (e : Event) : (s.emit e).cat = s.cat := rfl
@[simp] theorem emit_buf (e : Event) : (s.emit e).buf = s.buf := rfl
@[simp] theorem emit_frm (e : Event) : (s.emit e).frm = s.frm := rfl
@[simp] theorem emit_alm (e : Event) : (s.emit e).alm = s.alm := rfl
@[simp] theorem emit_crcCalc (e : Event) : (s.emit e).crcCalc = s.crcCalc := rfl
@[simp] theorem emit_crcRecv (e : Event) : (s.emit e).crcRecv = s.crcRecv := rfl
@[simp] theorem emit_crcAcc (e : Event) : (s.emit e).crcAcc = s.crcAcc := rfl
@[simp] theorem emit_lastEvt (e : Event) : (s.emit e).lastEvt = s.lastEvt := rfl
@[simp] theorem emit_inputs (e : Event) : (s.emit e).inputs = s.inputs := rfl
@[simp] theorem emit_resetLine (e : Event) : (s.emit e).resetLine = s.resetLine := rfl
@[simp] theorem emit_bus (e : Event) : (s.emit e).bus = s.bus := rfl
@[simp] theorem emit_rdata (e : Event) : (s.emit e).rdata = s.rdata := rfl
@[simp] theorem emit_events (e : Event) : (s.emit e).events = s.events ++ [e] := rfl

@[simp] theorem openOutput_profile : (s.openOutput).profile = s.profile := rfl
@[simp] theorem openOutput_deviceCount : (s.openOutput).deviceCount = s.deviceCount := rfl
@[simp] theorem openOutput_cat : (s.openOutput).cat = s.cat := rfl
@[simp] theorem openOutput_buf : (s.openOutput).buf = s.buf := rfl
@[simp] theorem openOutput_frm : (s.openOutput).frm = s.frm := rfl
@[simp] theorem openOutput_alm : (s.openOutput).alm = s.alm := rfl
@[simp] theorem openOutput_crcCalc : (s.openOutput).crcCalc = s.crcCalc := rfl
@[simp] theorem openOutput_crcRecv : (s.openOutput).crcRecv = s.crcRecv := rfl
@[simp] theorem openOutput_crcAcc : (s.openOutput).crcAcc = s.crcAcc := rfl
@[simp] theorem openOutput_lastEvt : (s.openOutput).lastEvt = s.lastEvt := rfl
@[simp] theorem openOutput_inputs : (s.openOutput).inputs = s.inputs := rfl
@[simp] theorem openOutput_resetLine : (s.openOutput).resetLine = s.resetLine := rfl
@[simp] theorem openOutput_bus : (s.openOutput).bus = s.bus := rfl
@[simp] theorem openOutput_rdata : (s.openOutput).rdata = 0 := rfl
@[simp] theorem openOutput_events : (s.openOutput).events = [] := rfl

end Sys2Proof.Machine.State
end

