-- ==== Sys2Proof/Laws/Validator.lean ====
section
/-! SUPPORT. Everything the validator can do, and what acceptance writes. -/

namespace Sys2Proof.Machine

/-- Acceptance writes the frame latch, the alarm latch for record type 0x12, and one event. -/
theorem accept_eq (P : Params) (f : List Byte) (prof : Profile) (dev : Byte) (s : State) :
    accept P f prof dev s =
      { s with
        frm := latchedFrame P f prof dev
        alm := if frameRtype P f prof = alarmRtype then (alarmLatch f prof dev s).alm else s.alm
        events := s.events ++ [.frameOk dev (frameRtype P f prof) f] } := by
  unfold accept
  split <;> simp_all [State.emit, State.setEvents, State.setFrm, alarmLatch, State.setAlm]

/-- The validator writes the two CRC registers and then ends in exactly one of its three verdicts. -/
theorem validate_cases (P : Params) (f : List Byte) (prof : Profile) (s : State) :
    (frameCrc P f prof ≠ frameTrailer f ∧
      validate P f prof s = (s.setCrcCheck (frameCrc P f prof) (frameTrailer f)).emit
        (.crcErr (frameCrc P f prof) (frameTrailer f))) ∨
    (frameCrc P f prof = frameTrailer f ∧ devInRange (deviceIndex P f prof) s = false ∧
      validate P f prof s = (s.setCrcCheck (frameCrc P f prof) (frameTrailer f)).emit
        (.devRange (deviceIndex P f prof))) ∨
    (frameCrc P f prof = frameTrailer f ∧ devInRange (deviceIndex P f prof) s = true ∧
      validate P f prof s = accept P f prof (BitVec.ofInt 8 (deviceIndex P f prof))
        (s.setCrcCheck (frameCrc P f prof) (frameTrailer f))) := by
  unfold validate
  by_cases h : frameCrc P f prof = frameTrailer f
  · by_cases hd : devInRange (deviceIndex P f prof) s = true
    · refine .inr (.inr ⟨h, hd, ?_⟩)
      have hd' : devInRange (deviceIndex P f prof) (s.setCrcCheck (frameCrc P f prof) (frameTrailer f)) = true := hd
      simp only [h] at hd' ⊢
      simp [hd']
    · rw [Bool.not_eq_true] at hd
      refine .inr (.inl ⟨h, hd, ?_⟩)
      have hd' : devInRange (deviceIndex P f prof) (s.setCrcCheck (frameCrc P f prof) (frameTrailer f)) = false := hd
      simp only [h] at hd' ⊢
      simp [hd']
  · exact .inl ⟨h, by simp [h]⟩

/-- An index in range is 0 to 254. -/
theorem devInRange_bounds {dev : Int} {s : State} (h : devInRange dev s = true) :
    0 ≤ dev ∧ dev < s.deviceCount.toNat ∧ dev < 255 := by
  simp only [devInRange, Bool.and_eq_true, decide_eq_true_eq] at h
  have := s.deviceCount.isLt
  omega

/-- An index in range survives the move to the 8-bit FRM_DEV. -/
theorem devInRange_ofInt {dev : Int} {s : State} (h : devInRange dev s = true) :
    ((BitVec.ofInt 8 dev).toNat : Int) = dev := by
  have := devInRange_bounds h
  rw [BitVec.toNat_ofInt]
  omega

section
variable (P : Params) (f : List Byte) (prof : Profile) (s : State)

@[simp] theorem validate_profile : (validate P f prof s).profile = s.profile := by
  rcases validate_cases P f prof s with ⟨_, h⟩ | ⟨_, _, h⟩ | ⟨_, _, h⟩ <;> rw [h] <;> simp [accept_eq]
@[simp] theorem validate_deviceCount : (validate P f prof s).deviceCount = s.deviceCount := by
  rcases validate_cases P f prof s with ⟨_, h⟩ | ⟨_, _, h⟩ | ⟨_, _, h⟩ <;> rw [h] <;> simp [accept_eq]
@[simp] theorem validate_cat : (validate P f prof s).cat = s.cat := by
  rcases validate_cases P f prof s with ⟨_, h⟩ | ⟨_, _, h⟩ | ⟨_, _, h⟩ <;> rw [h] <;> simp [accept_eq]
@[simp] theorem validate_buf : (validate P f prof s).buf = s.buf := by
  rcases validate_cases P f prof s with ⟨_, h⟩ | ⟨_, _, h⟩ | ⟨_, _, h⟩ <;> rw [h] <;> simp [accept_eq]
@[simp] theorem validate_crcAcc : (validate P f prof s).crcAcc = s.crcAcc := by
  rcases validate_cases P f prof s with ⟨_, h⟩ | ⟨_, _, h⟩ | ⟨_, _, h⟩ <;> rw [h] <;> simp [accept_eq]
@[simp] theorem validate_lastEvt : (validate P f prof s).lastEvt = s.lastEvt := by
  rcases validate_cases P f prof s with ⟨_, h⟩ | ⟨_, _, h⟩ | ⟨_, _, h⟩ <;> rw [h] <;> simp [accept_eq]
@[simp] theorem validate_inputs : (validate P f prof s).inputs = s.inputs := by
  rcases validate_cases P f prof s with ⟨_, h⟩ | ⟨_, _, h⟩ | ⟨_, _, h⟩ <;> rw [h] <;> simp [accept_eq]
@[simp] theorem validate_resetLine : (validate P f prof s).resetLine = s.resetLine := by
  rcases validate_cases P f prof s with ⟨_, h⟩ | ⟨_, _, h⟩ | ⟨_, _, h⟩ <;> rw [h] <;> simp [accept_eq]
@[simp] theorem validate_bus : (validate P f prof s).bus = s.bus := by
  rcases validate_cases P f prof s with ⟨_, h⟩ | ⟨_, _, h⟩ | ⟨_, _, h⟩ <;> rw [h] <;> simp [accept_eq]
@[simp] theorem validate_rdata : (validate P f prof s).rdata = s.rdata := by
  rcases validate_cases P f prof s with ⟨_, h⟩ | ⟨_, _, h⟩ | ⟨_, _, h⟩ <;> rw [h] <;> simp [accept_eq]

/-- The validator emits exactly one event. -/
theorem validate_events : ∃ e, (validate P f prof s).events = s.events ++ [e] := by
  rcases validate_cases P f prof s with ⟨_, h⟩ | ⟨_, _, h⟩ | ⟨_, _, h⟩ <;> rw [h] <;> simp [accept_eq]
end

end Sys2Proof.Machine
end

