-- ==== Sys2Proof/Laws/Sync.lean ====
section
/-! SUPPORT. The retry loop of PUSHB, one pass at a time and as a whole (41_sync_rolling.md R134, R137). -/

namespace Sys2Proof.Machine

/-- Every accepted header has a length of at least 23. -/
theorem lenA_of_header {b0 b1 b2 : Byte} (h : hdrOkA b0 b1 b2 = true) :
    lenA b1 b2 = 41 ∨ lenA b1 b2 = 57 ∨ lenA b1 b2 = 23 := by
  simp only [hdrOkA, Bool.or_eq_true, Bool.and_eq_true, beq_iff_eq] at h
  rcases h with ⟨⟨_, rfl⟩, rfl | rfl⟩ | ⟨⟨_, rfl⟩, rfl⟩ <;> decide

theorem syncLoop_of_short (P : Params) {buf : List Byte} (s : State) (h : buf.length < 5) :
    syncLoop P buf s = s.setBuf buf := by
  match buf with
  | [] => rfl
  | [_] => rfl
  | [_, _] => rfl
  | b0 :: b1 :: b2 :: more =>
    have h' : (b0 :: b1 :: b2 :: more).length < Config.minHdrA := h
    rw [syncLoop]
    simp only [h', if_true]

/-- A bad header drops one byte, emits HDR_DROP, and goes round again. -/
theorem syncLoop_of_bad_header (P : Params) {buf : List Byte} (s : State) (h : 5 ≤ buf.length)
    (hb : hdrOkA (frameAt buf 0) (frameAt buf 1) (frameAt buf 2) = false) :
    syncLoop P buf s = syncLoop P (buf.drop 1) (s.emit .hdrDrop) := by
  match buf, h with
  | b0 :: b1 :: b2 :: more, h =>
    have h' : ¬ (b0 :: b1 :: b2 :: more).length < Config.minHdrA := by simpa [Config.minHdrA] using h
    have hb' : hdrOkA b0 b1 b2 = false := hb
    rw [syncLoop]
    simp only [h', hb', if_false, Bool.not_false, if_true, List.drop_succ_cons, List.drop_zero]

/-- A good header with too few bytes waits. -/
theorem syncLoop_of_waiting (P : Params) {buf : List Byte} (s : State) (h : 5 ≤ buf.length)
    (hb : hdrOkA (frameAt buf 0) (frameAt buf 1) (frameAt buf 2) = true)
    (hl : buf.length < lenA (frameAt buf 1) (frameAt buf 2)) : syncLoop P buf s = s.setBuf buf := by
  match buf, h with
  | b0 :: b1 :: b2 :: more, h =>
    have h' : ¬ (b0 :: b1 :: b2 :: more).length < Config.minHdrA := by simpa [Config.minHdrA] using h
    have hb' : hdrOkA b0 b1 b2 = true := hb
    have hl' : (b0 :: b1 :: b2 :: more).length < lenA b1 b2 := hl
    have h0 : lenA b1 b2 ≠ 0 := by rcases lenA_of_header hb' with e | e | e <;> omega
    rw [syncLoop]
    simp only [h', hb', hl', h0, if_false, Bool.not_true, Bool.false_eq_true, if_true]

/-- A good header with its bytes there hands the candidate to the validator and clears the buffer. -/
theorem syncLoop_of_complete (P : Params) {buf : List Byte} (s : State) (h : 5 ≤ buf.length)
    (hb : hdrOkA (frameAt buf 0) (frameAt buf 1) (frameAt buf 2) = true)
    (hl : lenA (frameAt buf 1) (frameAt buf 2) ≤ buf.length) :
    syncLoop P buf s = validate P (buf.take (lenA (frameAt buf 1) (frameAt buf 2))) .A (s.setBuf []) := by
  match buf, h with
  | b0 :: b1 :: b2 :: more, h =>
    have h' : ¬ (b0 :: b1 :: b2 :: more).length < Config.minHdrA := by simpa [Config.minHdrA] using h
    have hb' : hdrOkA b0 b1 b2 = true := hb
    have hl' : ¬ (b0 :: b1 :: b2 :: more).length < lenA b1 b2 := by
      have : lenA b1 b2 ≤ (b0 :: b1 :: b2 :: more).length := hl
      omega
    have h0 : lenA b1 b2 ≠ 0 := by rcases lenA_of_header hb' with e | e | e <;> omega
    rw [syncLoop]
    simp only [h', hb', hl', h0, if_false, Bool.not_true, Bool.false_eq_true]
    rfl

/-- The loop as a whole: it drops k front bytes with one HDR_DROP each, and then waits or hands off. -/
theorem syncLoop_cases (P : Params) (buf : List Byte) (s : State) :
    ∃ k, k ≤ buf.length ∧
      (∀ j, j < k → 5 ≤ (buf.drop j).length ∧
        hdrOkA (frameAt (buf.drop j) 0) (frameAt (buf.drop j) 1) (frameAt (buf.drop j) 2) = false) ∧
      let front := buf.drop k
      let dropped := s.setEvents (s.events ++ List.replicate k .hdrDrop)
      ((front.length < 5 ∨
          (5 ≤ front.length ∧ hdrOkA (frameAt front 0) (frameAt front 1) (frameAt front 2) = true ∧
            front.length < lenA (frameAt front 1) (frameAt front 2))) ∧
        syncLoop P buf s = dropped.setBuf front) ∨
      (5 ≤ front.length ∧ hdrOkA (frameAt front 0) (frameAt front 1) (frameAt front 2) = true ∧
        lenA (frameAt front 1) (frameAt front 2) ≤ front.length ∧
        syncLoop P buf s =
          validate P (front.take (lenA (frameAt front 1) (frameAt front 2))) .A (dropped.setBuf [])) := by
  induction buf generalizing s with
  | nil => exact ⟨0, Nat.le_refl _, by simp, .inl ⟨by simp, by simp [syncLoop_of_short, State.setEvents]⟩⟩
  | cons b rest ih =>
    have same : s.setEvents (s.events ++ List.replicate 0 .hdrDrop) = s := by simp [State.setEvents]
    by_cases h5 : (b :: rest).length < 5
    · exact ⟨0, Nat.zero_le _, by simp, .inl ⟨.inl h5, by rw [same]; exact syncLoop_of_short P s h5⟩⟩
    have h5' : 5 ≤ (b :: rest).length := by omega
    cases hb : hdrOkA (frameAt (b :: rest) 0) (frameAt (b :: rest) 1) (frameAt (b :: rest) 2) with
    | true =>
      refine ⟨0, Nat.zero_le _, by simp, ?_⟩
      by_cases hl : (b :: rest).length < lenA (frameAt (b :: rest) 1) (frameAt (b :: rest) 2)
      · exact .inl ⟨.inr ⟨h5', hb, hl⟩, by rw [same]; exact syncLoop_of_waiting P s h5' hb hl⟩
      · exact .inr ⟨h5', hb, by simpa using hl, by
          rw [same]; exact syncLoop_of_complete P s h5' hb (by simpa using hl)⟩
    | false =>
      obtain ⟨k, hk, hbad, hend⟩ := ih (s.emit .hdrDrop)
      have more : (s.emit .hdrDrop).setEvents ((s.emit .hdrDrop).events ++ List.replicate k .hdrDrop) =
          s.setEvents (s.events ++ List.replicate (k + 1) .hdrDrop) := by
        simp [State.emit, State.setEvents, List.replicate_succ]
      have step : syncLoop P (b :: rest) s = syncLoop P rest (s.emit .hdrDrop) :=
        syncLoop_of_bad_header P s h5' hb
      refine ⟨k + 1, by simpa using hk, ?_, ?_⟩
      · intro j hj
        cases j with
        | zero => exact ⟨h5', hb⟩
        | succ j => exact hbad j (by omega)
      · rw [step, ← more]
        exact hend

end Sys2Proof.Machine
end

