-- ==== Sys2Proof/Laws/Commands.lean ====
section
/-! SUPPORT. What the effects of the commands leave as it was. -/

namespace Sys2Proof.Machine

section
variable (P : Params) (s : State)

@[simp] theorem syncLoop_profile (buf : List Byte) : (syncLoop P buf s).profile = s.profile := by
  rcases syncLoop_cases P buf s with ⟨_, _, _, ⟨_, h⟩ | ⟨_, _, _, h⟩⟩ <;> rw [h] <;> simp
@[simp] theorem syncLoop_deviceCount (buf : List Byte) : (syncLoop P buf s).deviceCount = s.deviceCount := by
  rcases syncLoop_cases P buf s with ⟨_, _, _, ⟨_, h⟩ | ⟨_, _, _, h⟩⟩ <;> rw [h] <;> simp
@[simp] theorem syncLoop_cat (buf : List Byte) : (syncLoop P buf s).cat = s.cat := by
  rcases syncLoop_cases P buf s with ⟨_, _, _, ⟨_, h⟩ | ⟨_, _, _, h⟩⟩ <;> rw [h] <;> simp
@[simp] theorem syncLoop_crcAcc (buf : List Byte) : (syncLoop P buf s).crcAcc = s.crcAcc := by
  rcases syncLoop_cases P buf s with ⟨_, _, _, ⟨_, h⟩ | ⟨_, _, _, h⟩⟩ <;> rw [h] <;> simp
@[simp] theorem syncLoop_lastEvt (buf : List Byte) : (syncLoop P buf s).lastEvt = s.lastEvt := by
  rcases syncLoop_cases P buf s with ⟨_, _, _, ⟨_, h⟩ | ⟨_, _, _, h⟩⟩ <;> rw [h] <;> simp
@[simp] theorem syncLoop_inputs (buf : List Byte) : (syncLoop P buf s).inputs = s.inputs := by
  rcases syncLoop_cases P buf s with ⟨_, _, _, ⟨_, h⟩ | ⟨_, _, _, h⟩⟩ <;> rw [h] <;> simp
@[simp] theorem syncLoop_resetLine (buf : List Byte) : (syncLoop P buf s).resetLine = s.resetLine := by
  rcases syncLoop_cases P buf s with ⟨_, _, _, ⟨_, h⟩ | ⟨_, _, _, h⟩⟩ <;> rw [h] <;> simp
@[simp] theorem syncLoop_bus (buf : List Byte) : (syncLoop P buf s).bus = s.bus := by
  rcases syncLoop_cases P buf s with ⟨_, _, _, ⟨_, h⟩ | ⟨_, _, _, h⟩⟩ <;> rw [h] <;> simp
@[simp] theorem syncLoop_rdata (buf : List Byte) : (syncLoop P buf s).rdata = s.rdata := by
  rcases syncLoop_cases P buf s with ⟨_, _, _, ⟨_, h⟩ | ⟨_, _, _, h⟩⟩ <;> rw [h] <;> simp
@[simp] theorem pushByte_profile (b : Byte) : (pushByte P b s).profile = s.profile := by
  unfold pushByte
  split
  · simp
  · dsimp only
    split <;> simp
@[simp] theorem pushByte_deviceCount (b : Byte) : (pushByte P b s).deviceCount = s.deviceCount := by
  unfold pushByte
  split
  · simp
  · dsimp only
    split <;> simp
@[simp] theorem pushByte_cat (b : Byte) : (pushByte P b s).cat = s.cat := by
  unfold pushByte
  split
  · simp
  · dsimp only
    split <;> simp
@[simp] theorem pushByte_crcAcc (b : Byte) : (pushByte P b s).crcAcc = s.crcAcc := by
  unfold pushByte
  split
  · simp
  · dsimp only
    split <;> simp
@[simp] theorem pushByte_lastEvt (b : Byte) : (pushByte P b s).lastEvt = s.lastEvt := by
  unfold pushByte
  split
  · simp
  · dsimp only
    split <;> simp
@[simp] theorem pushByte_inputs (b : Byte) : (pushByte P b s).inputs = s.inputs := by
  unfold pushByte
  split
  · simp
  · dsimp only
    split <;> simp
@[simp] theorem pushByte_resetLine (b : Byte) : (pushByte P b s).resetLine = s.resetLine := by
  unfold pushByte
  split
  · simp
  · dsimp only
    split <;> simp
@[simp] theorem pushByte_bus (b : Byte) : (pushByte P b s).bus = s.bus := by
  unfold pushByte
  split
  · simp
  · dsimp only
    split <;> simp
@[simp] theorem pushByte_rdata (b : Byte) : (pushByte P b s).rdata = s.rdata := by
  unfold pushByte
  split
  · simp
  · dsimp only
    split <;> simp
@[simp] theorem pushBlock_profile : (pushBlock P s).profile = s.profile := by
  unfold pushBlock
  split
  · simp
  · dsimp only
    split
    · simp
    · split <;> simp
@[simp] theorem pushBlock_deviceCount : (pushBlock P s).deviceCount = s.deviceCount := by
  unfold pushBlock
  split
  · simp
  · dsimp only
    split
    · simp
    · split <;> simp
@[simp] theorem pushBlock_cat : (pushBlock P s).cat = s.cat := by
  unfold pushBlock
  split
  · simp
  · dsimp only
    split
    · simp
    · split <;> simp
@[simp] theorem pushBlock_crcAcc : (pushBlock P s).crcAcc = s.crcAcc := by
  unfold pushBlock
  split
  · simp
  · dsimp only
    split
    · simp
    · split <;> simp
@[simp] theorem pushBlock_lastEvt : (pushBlock P s).lastEvt = s.lastEvt := by
  unfold pushBlock
  split
  · simp
  · dsimp only
    split
    · simp
    · split <;> simp
@[simp] theorem pushBlock_inputs : (pushBlock P s).inputs = s.inputs := by
  unfold pushBlock
  split
  · simp
  · dsimp only
    split
    · simp
    · split <;> simp
@[simp] theorem pushBlock_resetLine : (pushBlock P s).resetLine = s.resetLine := by
  unfold pushBlock
  split
  · simp
  · dsimp only
    split
    · simp
    · split <;> simp
@[simp] theorem pushBlock_bus : (pushBlock P s).bus = s.bus := by
  unfold pushBlock
  split
  · simp
  · dsimp only
    split
    · simp
    · split <;> simp
@[simp] theorem pushBlock_rdata : (pushBlock P s).rdata = s.rdata := by
  unfold pushBlock
  split
  · simp
  · dsimp only
    split
    · simp
    · split <;> simp
@[simp] theorem pushBlock_buf : (pushBlock P s).buf = s.buf := by
  unfold pushBlock
  split
  · simp
  · dsimp only
    split
    · simp
    · split <;> simp
end

/-- A write of CTRL changes nothing, or stores the other profile and empties the buffer. -/
theorem writeCtrl_cases (v : Half) (s : State) :
    (profileOfBit (v.getLsbD 0) = s.profile ∧ writeCtrl v s = s) ∨
    (profileOfBit (v.getLsbD 0) ≠ s.profile ∧
      writeCtrl v s = (s.setBuf []).setProfile (profileOfBit (v.getLsbD 0))) := by
  unfold writeCtrl
  by_cases h : profileOfBit (v.getLsbD 0) = s.profile
  · refine .inl ⟨h, ?_⟩
    simp only [h, ne_eq, not_true_eq_false, if_false]
    rfl
  · exact .inr ⟨h, by simp only [h, ne_eq, not_false_eq_true, if_true]⟩

/-- WRCFG writes a configuration register at its address, and emits BAD_REG at every other one. -/
theorem writeConfig_cases (a : BitVec 8) (v : Half) (s : State) :
    (a = 0x00 ∧ writeConfig a v s = writeCtrl v s) ∨
    (a = 0x01 ∧ writeConfig a v s = s.setDeviceCount (v.setWidth 8)) ∨
    (a = 0x02 ∧ writeConfig a v s = s.setCat (v.setWidth 4)) ∨
    (0x02 < a.toNat ∧ writeConfig a v s = s.emit (.badReg a)) := by
  by_cases h0 : a = 0x00
  · subst h0; exact .inl ⟨rfl, rfl⟩
  by_cases h1 : a = 0x01
  · subst h1; exact .inr (.inl ⟨rfl, rfl⟩)
  by_cases h2 : a = 0x02
  · subst h2; exact .inr (.inr (.inl ⟨rfl, rfl⟩))
  have hlt : 0x02 < a.toNat := by
    simp only [← BitVec.toNat_inj, BitVec.ofNat_eq_ofNat, BitVec.toNat_ofNat] at h0 h1 h2
    omega
  refine .inr (.inr (.inr ⟨hlt, ?_⟩))
  unfold writeConfig regAt
  split
  · rename_i t ht
    exfalso
    split_ifs at ht
    · simp [regWrite] at ht
    · simp [regWrite] at ht
    · split at ht <;> simp_all [regWrite]
  · rfl

/-- A read of a mapped register is one write of the read data, any other read is BAD_REG with 0. -/
theorem readRegister_cases (P : Params) (a : BitVec 8) (s : State) :
    (∃ r, regAt a = some r ∧ readRegister P a s = s.setRdata (regRead P s r)) ∨
    (regAt a = none ∧ readRegister P a s = (s.setRdata 0x0000).emit (.badReg a)) := by
  unfold readRegister
  split <;> simp_all

theorem regAt_regAddr (r : Reg) : regAt (regAddr r) = some r := by
  cases r with
  | almout k => revert k; decide
  | frame k => revert k; decide
  | _ => rfl

end Sys2Proof.Machine
end

