-- ==== Sys2Proof/Laws/Crc.lean ====
section
/-! SUPPORT. The CRC steps are linear and invertible, and the table update is the loop over the bytes (40_crc_engine.md R100 to R108). -/

namespace Sys2Proof.Machine

theorem crc_nil (T : Byte → Half) : crc T [] = Config.crcSeed := rfl

theorem crc_append (T : Byte → Half) (l m : List Byte) : crc T (l ++ m) = m.foldl (crcUpdate T) (crc T l) := by
  simp [crc, List.foldl_append]

theorem xor_cancel_common (a b k : Half) : (a ^^^ k) ^^^ (b ^^^ k) = a ^^^ b := by
  ext i hi
  simp only [BitVec.getElem_xor]
  cases a[i] <;> cases b[i] <;> cases k[i] <;> rfl

theorem crcBitStep_xor (a b : Half) : crcBitStep (a ^^^ b) = crcBitStep a ^^^ crcBitStep b := by
  unfold crcBitStep
  cases ha : a.getLsbD 0 <;> cases hb : b.getLsbD 0 <;> rw [BitVec.getLsbD_xor, ha, hb, BitVec.ushiftRight_xor_distrib] <;>
    simp only [if_true, Bool.xor_true, Bool.not_true, Bool.not_false, Bool.xor_false, Bool.false_eq_true, if_false]
  · simp
  · ac_rfl
  · ac_rfl
  · rw [xor_cancel_common]
    simp

theorem crcBitStep_eq_zero {a : Half} (h : crcBitStep a = 0) : a = 0 := by
  unfold crcBitStep at h
  have h0 : a.getLsbD 0 = false := by
    cases ha : a.getLsbD 0 with
    | false => rfl
    | true =>
      have := congrArg (·.getLsbD 15) h
      simp [ha] at this
  rw [h0] at h
  apply BitVec.eq_of_getLsbD_eq
  intro i hi
  cases i with
  | zero => simpa using h0
  | succ i =>
    have := congrArg (·.getLsbD i) h
    simpa [Nat.add_comm 1 i] using this

theorem crcBitSteps_xor (n : Nat) (a b : Half) :
    Nat.repeat crcBitStep n (a ^^^ b) = Nat.repeat crcBitStep n a ^^^ Nat.repeat crcBitStep n b := by
  induction n with
  | zero => rfl
  | succ n ih => rw [Nat.repeat, ih, crcBitStep_xor]; rfl

theorem crcBitSteps_eq_zero {n : Nat} {a : Half} (h : Nat.repeat crcBitStep n a = 0) : a = 0 := by
  induction n with
  | zero => exact h
  | succ n ih => exact ih (crcBitStep_eq_zero h)

theorem crcEightBitSteps_xor (a b : Half) :
    crcEightBitSteps (a ^^^ b) = crcEightBitSteps a ^^^ crcEightBitSteps b := crcBitSteps_xor 8 a b

theorem crcEightBitSteps_injective {a b : Half} (h : crcEightBitSteps a = crcEightBitSteps b) : a = b := by
  have h0 : crcEightBitSteps (a ^^^ b) = 0 := by 
    rw [crcEightBitSteps_xor, h]
    exact BitVec.xor_self
  have := crcBitSteps_eq_zero (n := 8) h0
  exact BitVec.xor_eq_zero_iff.mp this

/-- A byte in the high half is shifted down whole. -/
theorem crcEightBitSteps_high (b : Byte) : crcEightBitSteps (b ++ (0 : Byte)) = b.setWidth 16 := by
  have h : ∀ n : Fin 256, crcEightBitSteps (BitVec.ofNat 8 n.val ++ (0 : Byte)) = (BitVec.ofNat 8 n.val).setWidth 16 := by
    decide +kernel
  simpa using h ⟨b.toNat, b.isLt⟩

end Sys2Proof.Machine
end

