-- ==== Sys2Proof/Laws/Decode.lean ====
section
/-! SUPPORT. The decoder as one chain of conditions, its masks as arithmetic on the word, and the value of an encoded word. -/

namespace Sys2Proof

theorem decode_chain (w : CmdWord) : decode w =
    if w &&& 0xFFFFFFFF = 0 then .ok .nop
    else if w &&& 0xFFFFFFFF = 0x10000000 then .ok .srst
    else if w &&& 0xFFFFFF00 = 0x20000000 then .ok (.pushb (dataField w))
    else if w &&& 0xFFFFFFFF = 0x30000000 then .ok .pushblk
    else if w &&& 0xFF000000 = 0x40000000 then .ok (.wrcfg (addrField w) (immField w))
    else if w &&& 0xFF00FFFF = 0x50000000 then .ok (.rdreg (addrField w))
    else if w &&& 0xFFFFFFFF = 0x60000000 then .ok .crcclr
    else if w &&& 0xFFFFFF00 = 0x70000000 then .ok (.crcb (dataField w))
    else .error (illegalReason w) := by
  simp only [decode, opcodeRows, OpcodeRow.accepts, List.find?, beq_eq_decide]
  split_ifs <;> simp only [*, decide_true, decide_false] <;> rfl

theorem and_eq_high_add_low (x m n : Nat) :
    x &&& m = ((x / 2 ^ n) &&& (m / 2 ^ n)) * 2 ^ n + ((x % 2 ^ n) &&& (m % 2 ^ n)) := by
  rw [← Nat.and_div_two_pow, ← Nat.and_mod_two_pow]
  exact (Nat.div_add_mod' _ _).symm

theorem mask_whole (w p : CmdWord) : w &&& 0xFFFFFFFF = p ↔ w.toNat = p.toNat := by
  rw [← BitVec.toNat_inj, BitVec.toNat_and]
  show w.toNat &&& (2 ^ 32 - 1) = _ ↔ _
  rw [Nat.and_two_pow_sub_one_eq_mod]
  omega

theorem mask_above_byte (w p : CmdWord) : w &&& 0xFFFFFF00 = p ↔ w.toNat / 256 * 256 = p.toNat := by
  rw [← BitVec.toNat_inj, BitVec.toNat_and]
  show w.toNat &&& 0xFFFFFF00 = _ ↔ _
  rw [and_eq_high_add_low _ _ 8]
  show (w.toNat / 2 ^ 8 &&& (2 ^ 24 - 1)) * 2 ^ 8 + (_ &&& 0) = _ ↔ _
  rw [Nat.and_two_pow_sub_one_eq_mod, Nat.and_zero]
  omega

theorem mask_top_byte (w p : CmdWord) : w &&& 0xFF000000 = p ↔ w.toNat / 2 ^ 24 * 2 ^ 24 = p.toNat := by
  rw [← BitVec.toNat_inj, BitVec.toNat_and]
  show w.toNat &&& 0xFF000000 = _ ↔ _
  rw [and_eq_high_add_low _ _ 24]
  show (w.toNat / 2 ^ 24 &&& (2 ^ 8 - 1)) * 2 ^ 24 + (_ &&& 0) = _ ↔ _
  rw [Nat.and_two_pow_sub_one_eq_mod, Nat.and_zero]
  omega

theorem mask_around_addr (w p : CmdWord) :
    w &&& 0xFF00FFFF = p ↔ w.toNat / 2 ^ 24 * 2 ^ 24 + w.toNat % 2 ^ 16 = p.toNat := by
  rw [← BitVec.toNat_inj, BitVec.toNat_and]
  show w.toNat &&& 0xFF00FFFF = _ ↔ _
  rw [and_eq_high_add_low _ _ 24, and_eq_high_add_low (w.toNat % 2 ^ 24) _ 16]
  show (w.toNat / 2 ^ 24 &&& (2 ^ 8 - 1)) * 2 ^ 24 +
    ((_ &&& 0) * 2 ^ 16 + ((w.toNat % 2 ^ 24 % 2 ^ 16) &&& (2 ^ 16 - 1))) = _ ↔ _
  rw [Nat.and_two_pow_sub_one_eq_mod, Nat.and_two_pow_sub_one_eq_mod, Nat.and_zero]
  omega

theorem field_toNat (w : CmdWord) (lo len : Nat) : (w.extractLsb' lo len).toNat = w.toNat / 2 ^ lo % 2 ^ len := by
  simp [Nat.shiftRight_eq_div_pow]

theorem decode_by_value (w : CmdWord) : decode w =
    if w.toNat = 0 then .ok .nop
    else if w.toNat = 0x10000000 then .ok .srst
    else if w.toNat / 256 * 256 = 0x20000000 then .ok (.pushb (dataField w))
    else if w.toNat = 0x30000000 then .ok .pushblk
    else if w.toNat / 2 ^ 24 * 2 ^ 24 = 0x40000000 then .ok (.wrcfg (addrField w) (immField w))
    else if w.toNat / 2 ^ 24 * 2 ^ 24 + w.toNat % 2 ^ 16 = 0x50000000 then .ok (.rdreg (addrField w))
    else if w.toNat = 0x60000000 then .ok .crcclr
    else if w.toNat / 256 * 256 = 0x70000000 then .ok (.crcb (dataField w))
    else .error (illegalReason w) := by
  rw [decode_chain]
  simp only [mask_whole, mask_above_byte, mask_top_byte, mask_around_addr]
  rfl

theorem decode_is_error_by_value (w : CmdWord) : (∃ e, decode w = .error e) ↔
    w.toNat ≠ 0 ∧ w.toNat ≠ 0x10000000 ∧ w.toNat / 256 * 256 ≠ 0x20000000 ∧ w.toNat ≠ 0x30000000 ∧
    w.toNat / 2 ^ 24 * 2 ^ 24 ≠ 0x40000000 ∧ w.toNat / 2 ^ 24 * 2 ^ 24 + w.toNat % 2 ^ 16 ≠ 0x50000000 ∧
    w.toNat ≠ 0x60000000 ∧ w.toNat / 256 * 256 ≠ 0x70000000 := by
  rw [decode_by_value]
  split_ifs <;> simp_all

theorem append_value {m n : Nat} (a : BitVec m) (b : BitVec n) : (a ++ b).toNat = a.toNat * 2 ^ n + b.toNat := by
  rw [BitVec.toNat_append, ← Nat.shiftLeft_add_eq_or_of_lt b.isLt, Nat.shiftLeft_eq]

theorem fieldsWord_value (op : BitVec 4) (addr : BitVec 8) (imm : Half) :
    (fieldsWord op addr imm).toNat = op.toNat * 2 ^ 28 + addr.toNat * 2 ^ 16 + imm.toNat := by
  have h : (fieldsWord op addr imm).toNat = (op ++ (0 : BitVec 4) ++ addr ++ imm).toNat := rfl
  rw [h, append_value, append_value, append_value]
  simp only [BitVec.ofNat_eq_ofNat, BitVec.toNat_ofNat]
  omega

theorem encode_value (i : Instr) : (encode i).toNat =
    match i with
    | .nop => 0
    | .srst => 0x10000000
    | .pushb b => 0x20000000 + b.toNat
    | .pushblk => 0x30000000
    | .wrcfg a v => 0x40000000 + a.toNat * 65536 + v.toNat
    | .rdreg a => 0x50000000 + a.toNat * 65536
    | .crcclr => 0x60000000
    | .crcb b => 0x70000000 + b.toNat := by
  cases i <;> simp only [encode, fieldsWord_value, BitVec.ofNat_eq_ofNat, BitVec.toNat_ofNat, BitVec.toNat_setWidth]
  all_goals omega

end Sys2Proof
end

