-- ==== Sys2Proof/Laws/Output.lean ====
section
/-! SUPPORT. What closing a command's output does: it writes LAST_EVT alone. -/

namespace Sys2Proof.Machine

theorem State.closeOutput_of_silent {s : State} (h : s.events = []) : s.closeOutput = s := by
  simp [State.closeOutput, h]

theorem State.closeOutput_emit (s : State) (e : Event) : (s.emit e).closeOutput = (s.emit e).setLastEvt e.code := by
  simp [State.closeOutput]

/-- Closing the output either leaves the state or writes the code of its last event to LAST_EVT. -/
theorem State.closeOutput_cases (s : State) :
    (s.events = [] ∧ s.closeOutput = s) ∨
    ∃ e, s.events.getLast? = some e ∧ s.closeOutput = s.setLastEvt e.code := by
  cases h : s.events.getLast? with
  | none => exact .inl ⟨by simpa using h, by simp [State.closeOutput, h]⟩
  | some e => exact .inr ⟨e, rfl, by simp [State.closeOutput, h]⟩

section
variable (s : State)

@[simp] theorem State.closeOutput_profile : s.closeOutput.profile = s.profile := by
  unfold State.closeOutput; split <;> rfl
@[simp] theorem State.closeOutput_deviceCount : s.closeOutput.deviceCount = s.deviceCount := by
  unfold State.closeOutput; split <;> rfl
@[simp] theorem State.closeOutput_cat : s.closeOutput.cat = s.cat := by
  unfold State.closeOutput; split <;> rfl
@[simp] theorem State.closeOutput_buf : s.closeOutput.buf = s.buf := by
  unfold State.closeOutput; split <;> rfl
@[simp] theorem State.closeOutput_frm : s.closeOutput.frm = s.frm := by
  unfold State.closeOutput; split <;> rfl
@[simp] theorem State.closeOutput_alm : s.closeOutput.alm = s.alm := by
  unfold State.closeOutput; split <;> rfl
@[simp] theorem State.closeOutput_crcCalc : s.closeOutput.crcCalc = s.crcCalc := by
  unfold State.closeOutput; split <;> rfl
@[simp] theorem State.closeOutput_crcRecv : s.closeOutput.crcRecv = s.crcRecv := by
  unfold State.closeOutput; split <;> rfl
@[simp] theorem State.closeOutput_crcAcc : s.closeOutput.crcAcc = s.crcAcc := by
  unfold State.closeOutput; split <;> rfl
@[simp] theorem State.closeOutput_inputs : s.closeOutput.inputs = s.inputs := by
  unfold State.closeOutput; split <;> rfl
@[simp] theorem State.closeOutput_resetLine : s.closeOutput.resetLine = s.resetLine := by
  unfold State.closeOutput; split <;> rfl
@[simp] theorem State.closeOutput_bus : s.closeOutput.bus = s.bus := by
  unfold State.closeOutput; split <;> rfl
@[simp] theorem State.closeOutput_rdata : s.closeOutput.rdata = s.rdata := by
  unfold State.closeOutput; split <;> rfl
@[simp] theorem State.closeOutput_events : s.closeOutput.events = s.events := by
  unfold State.closeOutput; split <;> rfl
theorem State.closeOutput_lastEvt : s.closeOutput.lastEvt =
    (match s.events.getLast? with | some e => e.code | none => s.lastEvt) := by
  unfold State.closeOutput; split <;> simp [*]
end

/-- Everything a command's frame can do: it answers a next state, that of its effect with the output closed. -/
theorem runCommand_next {effect : State → State} {s t : State} :
    runCommand effect s = .next t ↔ t = (effect s.openOutput).closeOutput := by
  simp only [runCommand, Host.Outcome.next.injEq]
  exact eq_comm

end Sys2Proof.Machine
end

