-- ==== Sys2Proof/Laws/Exec.lean ====
section
/-! SUPPORT. Every command as its effect inside the frame of R259, and everything a step can do. -/

namespace Sys2Proof.Machine

/-- The effect of a command, without its frame. -/
def effect : Instr → State → State
  | .nop => noEffect
  | .srst => softReset
  | .pushb b => pushByte Config.params b
  | .pushblk => pushBlock Config.params
  | .wrcfg a v => writeConfig a v
  | .rdreg a => readRegister Config.params a
  | .crcclr => crcClear
  | .crcb b => crcFeed Config.params b

theorem exec_is_effect (i : Instr) (s : State) : exec i s = .next (effect i s.openOutput).closeOutput := by
  cases i <;> rfl

theorem exec_next_iff {i : Instr} {s t : State} : exec i s = .next t ↔ t = (effect i s.openOutput).closeOutput := by
  rw [exec_is_effect, Host.Outcome.next.injEq]
  exact eq_comm

/-- Everything a step can do: hold, drive the reset input, drop a command in reset, run a command, or report an
illegal word. -/
theorem step_cases {s t : State} (h : step s = .next t) :
    (s.inputs = [] ∧ t = s) ∨
    (∃ rest, s.inputs = .resetLine true :: rest ∧ t = (s.setInputs rest).setResetLine true) ∨
    (∃ rest, s.inputs = .resetLine false :: rest ∧ s.resetLine = true ∧ t = State.reset.setInputs rest) ∨
    (∃ rest, s.inputs = .resetLine false :: rest ∧ s.resetLine = false ∧
      t = (s.setInputs rest).setResetLine false) ∨
    (∃ w blk rest, s.inputs = .command w blk :: rest ∧ s.resetLine = true ∧ t = s.setInputs rest) ∨
    (∃ w blk rest i, s.inputs = .command w blk :: rest ∧ s.resetLine = false ∧ decode w = .ok i ∧
      exec i ((s.setInputs rest).setBus blk) = .next t) ∨
    (∃ w blk rest e, s.inputs = .command w blk :: rest ∧ s.resetLine = false ∧ decode w = .error e ∧
      t = (((s.setInputs rest).setBus blk).openOutput.emit (.illegalCmd w)).setLastEvt 0x8) := by
  unfold step at h
  split at h
  · rename_i hi
    exact .inl ⟨hi, (Host.Outcome.next.inj h).symm⟩
  · rename_i asserted rest hi
    have ht := (Host.Outcome.next.inj h).symm
    subst ht
    cases asserted <;> cases hr : s.resetLine <;> simp [hi, State.releaseReset]
  · rename_i w blk rest hi
    split at h
    · rename_i hr
      exact .inr (.inr (.inr (.inr (.inl ⟨w, blk, rest, hi, hr, (Host.Outcome.next.inj h).symm⟩))))
    · rename_i hr
      have hr' : s.resetLine = false := by simpa using hr
      split at h
      · rename_i i hd
        exact .inr (.inr (.inr (.inr (.inr (.inl ⟨w, blk, rest, i, hi, hr', hd, h⟩)))))
      · rename_i e hd
        refine .inr (.inr (.inr (.inr (.inr (.inr ⟨w, blk, rest, e, hi, hr', hd, ?_⟩)))))
        exact (Host.Outcome.next.inj h).symm

end Sys2Proof.Machine
end

