-- ==== Sys2Proof/Laws/PerInstr.lean ====
section
/-! SUPPORT. Statements made of every command one by one (30_encoding.md R70, R72, R74). -/

namespace Sys2Proof.Laws

/-- The RSV field of a command's word is zero (R74: a nonzero RSV would make it illegal). -/
def RsvZero.Statement (i : Instr) : Prop := rsvField (encode i) = 0

theorem RsvZero.of_value {i : Instr} (h : (encode i).toNat / 2 ^ 24 % 2 ^ 4 = 0) : RsvZero.Statement i := by
  rw [RsvZero.Statement, ← BitVec.toNat_inj, rsvField, field_toNat, h]
  rfl

theorem RsvZero.nop : RsvZero.Statement .nop := RsvZero.of_value (by rw [encode_value]; rfl)
theorem RsvZero.srst : RsvZero.Statement .srst := RsvZero.of_value (by rw [encode_value]; rfl)
theorem RsvZero.pushb (b : Byte) : RsvZero.Statement (.pushb b) :=
  RsvZero.of_value (by rw [encode_value]; dsimp only; omega)
theorem RsvZero.pushblk : RsvZero.Statement .pushblk := RsvZero.of_value (by rw [encode_value]; rfl)
theorem RsvZero.wrcfg (a : BitVec 8) (v : Half) : RsvZero.Statement (.wrcfg a v) :=
  RsvZero.of_value (by rw [encode_value]; dsimp only; omega)
theorem RsvZero.rdreg (a : BitVec 8) : RsvZero.Statement (.rdreg a) :=
  RsvZero.of_value (by rw [encode_value]; dsimp only; omega)
theorem RsvZero.crcclr : RsvZero.Statement .crcclr := RsvZero.of_value (by rw [encode_value]; rfl)
theorem RsvZero.crcb (b : Byte) : RsvZero.Statement (.crcb b) :=
  RsvZero.of_value (by rw [encode_value]; dsimp only; omega)

/-- The OP code of a command's row of the opcode map (R72). -/
def opcode : Instr → Nat
  | .nop => 0x0
  | .srst => 0x1
  | .pushb _ => 0x2
  | .pushblk => 0x3
  | .wrcfg _ _ => 0x4
  | .rdreg _ => 0x5
  | .crcclr => 0x6
  | .crcb _ => 0x7

/-- A command's word carries its own OP code, whatever the operands. -/
def OwnOpcode.Statement (i : Instr) : Prop := (opField (encode i)).toNat = opcode i

theorem OwnOpcode.of_value {i : Instr} (h : (encode i).toNat / 2 ^ 28 % 2 ^ 4 = opcode i) : OwnOpcode.Statement i := by
  rw [OwnOpcode.Statement, opField, field_toNat, h]

theorem OwnOpcode.nop : OwnOpcode.Statement .nop := OwnOpcode.of_value (by rw [encode_value]; rfl)
theorem OwnOpcode.srst : OwnOpcode.Statement .srst := OwnOpcode.of_value (by rw [encode_value]; rfl)
theorem OwnOpcode.pushb (b : Byte) : OwnOpcode.Statement (.pushb b) :=
  OwnOpcode.of_value (by rw [encode_value]; dsimp only [opcode]; omega)
theorem OwnOpcode.pushblk : OwnOpcode.Statement .pushblk := OwnOpcode.of_value (by rw [encode_value]; rfl)
theorem OwnOpcode.wrcfg (a : BitVec 8) (v : Half) : OwnOpcode.Statement (.wrcfg a v) :=
  OwnOpcode.of_value (by rw [encode_value]; dsimp only [opcode]; omega)
theorem OwnOpcode.rdreg (a : BitVec 8) : OwnOpcode.Statement (.rdreg a) :=
  OwnOpcode.of_value (by rw [encode_value]; dsimp only [opcode]; omega)
theorem OwnOpcode.crcclr : OwnOpcode.Statement .crcclr := OwnOpcode.of_value (by rw [encode_value]; rfl)
theorem OwnOpcode.crcb (b : Byte) : OwnOpcode.Statement (.crcb b) :=
  OwnOpcode.of_value (by rw [encode_value]; dsimp only [opcode]; omega)

end Sys2Proof.Laws
end

