-- ==== Sys2Proof/RefCfg.lean ====
section
/-! DEFINITION. REFCFG and REFMAP, the spec's invented reference configuration (00_scope.md R7, 44_alarm_decoder.md R233). It
exists for test vectors only: no part of the machine uses it. -/

namespace Sys2Proof.RefCfg

/-- The cell lists of REFMAP (R233). -/
def refCells : CellCat → List Nat
  | .vlow => [0, 1]
  | .vhigh => [2, 3]
  | .tlow => [4]
  | .thigh => [5]
  | .bal => [6, 7]

/-- The labels of REFMAP (R233). -/
def refLabel (j i : Nat) : Option (LabelCat × LabelId) :=
  match j with
  | 8 => some (.alarm, i)
  | 9 => some (.alarm, 8 + i)
  | 10 => some (.protection, 16 + i)
  | 11 => some (.protection, 24 + i)
  | 12 => some (.sysstatus, 32 + i)
  | 13 => some (.fet, 40 + i)
  | _ => none

/-- REFMAP in the form of R231. -/
def refForm : MapForm := { cells := refCells, label := refLabel }

/-- REFCFG (R7). -/
def refParams : Params :=
  { crcTableB := Machine.crcTableA
    markerB := #v[0xAA, 0x00, 0x00, 0x55]
    markerMaskB := 0b1001
    devOriginB := 0x01
    rtypePosB := .pos2
    alarmMapA := refForm.toMap 18
    alarmMapB := refForm.toMap 26 }

end Sys2Proof.RefCfg
end

