-- ==== Sys2Proof/Tests/Slice0.lean ====
section
/-! SUPPORT. The model's own tests and the witnesses of the statements' hypotheses. Expected values come from the rules of spec/ and
from the vectors of 95_test_vectors.md, never from the model. -/

namespace Sys2Proof.Tests

open Sys2Proof.Machine Sys2Proof.Safety Sys2Proof.RefCfg

/-! ## Helpers -/

/-- The next state of an outcome; every step of this block has one. -/
def nextOf : Host.Outcome State Fault Refusal → State
  | .next s => s
  | .fault _ => State.reset
  | .refused _ => State.reset

/-- A state whose next input is one command word. -/
def presenting (w : CmdWord) : State := { State.reset with inputs := [.command w 0] }

/-- A block bus value from its bytes. -/
def busOf (bs : List Nat) : Bus := BitVec.ofNat 256 (blockBus bs)

/-- A read through the register map under REFCFG. -/
def readRef (s : State) (a : BitVec 8) : Half := (readRegister refParams a s).rdata

/-- F1 of 95_test_vectors.md section 2.4, without its last byte. -/
def f1Body : List Byte := [0x01, 0x01, 0x12] ++ List.replicate 18 0x00 ++ [0x8B]

/-- F1: a valid alarm frame of device 0. -/
def f1 : List Byte := f1Body ++ [0x60]

/-- One byte before F1 is complete, with one device. -/
def beforeF1 : State := { State.reset with deviceCount := 1, buf := f1Body }

/-- F1 accepted. -/
def afterF1 : State := nextOf (exec (.pushb 0x60) beforeF1)

/-- A window locked on a 0x24 header with 40 of its 41 bytes. -/
def lockedAt40 : State := { State.reset with buf := [0x01, 0x04, 0x24] ++ List.replicate 37 0x00 }

/-- The payload of 95_test_vectors.md section 2.6, latched in variant A for device 1. -/
def alarmState (cat : BitVec 4) : State :=
  alarmLatch ([0x02, 0x01, 0x12] ++ [0x03, 0x80, 0x01, 0x00, 0x00, 0x02, 0x10, 0x01, 0x05, 0x80, 0x01, 0x00, 0x40, 0xFF, 0xFF,
    0x00, 0x00, 0x00] ++ [0xB0, 0xF4]) .A 1 (State.reset.setCat cat)

/-- Variant B with two devices and a block on the bus. -/
def withBlock (bs : List Nat) : State := { State.reset with profile := .B, deviceCount := 2, bus := busOf bs }

/-- B1 of 95_test_vectors.md section 2.5 with the given header. -/
def block (b0 b1 b2 b3 c0 c1 : Nat) : List Nat := [b0, b1, b2, b3] ++ List.replicate 26 0 ++ [c0, c1]

/-! ## WellFormed refuses an ill-formed term for each of its checks -/

theorem test_every_command_is_well_formed :
    [Instr.nop, .srst, .pushb 0xFF, .pushblk, .wrcfg 0xFF 0xFFFF, .rdreg 0xFF, .crcclr, .crcb 0xFF].all
      Instr.wellFormed = true := by decide
theorem test_pushb_256_is_ill_formed : (AsmLine.pushb 256).wellFormed = false := by decide
theorem test_crcb_256_is_ill_formed : (AsmLine.crcb 256).wellFormed = false := by decide
theorem test_pushblk_of_31_bytes_is_ill_formed : (AsmLine.pushblk (List.replicate 31 0)).wellFormed = false := by decide
theorem test_pushblk_with_byte_256_is_ill_formed :
    (AsmLine.pushblk (256 :: List.replicate 31 0)).wellFormed = false := by decide
theorem test_wrcfg_imm_65536_is_ill_formed : (AsmLine.wrcfg (.named .ctrl) 65536).wellFormed = false := by decide
theorem test_wrcfg_raw_256_is_ill_formed : (AsmLine.wrcfg (.raw 256) 0).wellFormed = false := by decide
theorem test_rdreg_raw_256_is_ill_formed : (AsmLine.rdreg (.raw 256)).wellFormed = false := by decide
theorem test_word_of_33_bits_is_ill_formed : (AsmLine.word 4294967296).wellFormed = false := by decide
theorem test_empty_pushs_is_ill_formed : (AsmLine.pushs []).wellFormed = false := by decide
theorem test_pushs_with_byte_256_is_ill_formed : (AsmLine.pushs [0, 256]).wellFormed = false := by decide
theorem test_empty_crcs_is_ill_formed : (AsmLine.crcs []).wellFormed = false := by decide
theorem test_crcs_with_byte_256_is_ill_formed : (AsmLine.crcs [256]).wellFormed = false := by decide
theorem test_setdev_256_is_ill_formed : (AsmLine.setdev 256).wellFormed = false := by decide
theorem test_selcat_16_is_ill_formed : (AsmLine.selcat 16).wellFormed = false := by decide
theorem test_map_with_descending_cells_is_ill_formed :
    MapForm.wellFormed 18 { cells := fun c => if c = .vlow then [1, 0] else [], label := fun _ _ => none } = false := by
  decide
theorem test_map_with_offset_18_is_ill_formed :
    MapForm.wellFormed 18 { cells := fun c => if c = .bal then [18] else [], label := fun _ _ => none } = false := by
  decide
theorem test_map_with_shared_byte_is_ill_formed :
    MapForm.wellFormed 18
      { cells := fun c => if c = .vlow ∨ c = .vhigh then [3] else [], label := fun _ _ => none } = false := by decide
theorem test_refmap_is_well_formed : refForm.wellFormed 18 = true ∧ refForm.wellFormed 26 = true := by decide

/-! ## Decode: words written from the opcode map (95_test_vectors.md section 2.1) -/

theorem test_decode_nop : decode 0x00000000 = .ok .nop ∧ decode 0x00000001 = .error .nonzeroField := by decide
theorem test_decode_srst : decode 0x10000000 = .ok .srst ∧ decode 0x10000001 = .error .nonzeroField := by decide
theorem test_decode_pushb :
    decode 0x200000FF = .ok (.pushb 0xFF) ∧ decode 0x20000100 = .error .nonzeroField ∧
    decode 0x20010000 = .error .nonzeroField ∧ decode 0x21000005 = .error .reservedBits := by decide
theorem test_decode_pushblk : decode 0x30000000 = .ok .pushblk ∧ decode 0x30000001 = .error .nonzeroField := by decide
theorem test_decode_wrcfg :
    decode 0x4001FFFF = .ok (.wrcfg 0x01 0xFFFF) ∧ decode 0x41000000 = .error .reservedBits := by decide
theorem test_decode_rdreg :
    decode 0x50080000 = .ok (.rdreg 0x08) ∧ decode 0x50080001 = .error .nonzeroField ∧
    decode 0x50FF0000 = .ok (.rdreg 0xFF) := by decide
theorem test_decode_crcclr : decode 0x60000000 = .ok .crcclr ∧ decode 0x60010000 = .error .nonzeroField := by decide
theorem test_decode_crcb : decode 0x70000037 = .ok (.crcb 0x37) ∧ decode 0x70000137 = .error .nonzeroField := by decide
theorem test_decode_reserved_opcodes :
    decode 0x80000000 = .error .reservedOpcode ∧ decode 0xFFFFFFFF = .error .reservedOpcode := by decide
theorem test_encode_words :
    [Instr.srst, .pushb 0x11, .wrcfg 0x01 0x0102, .rdreg 0x5D, .crcb 0x4B].map encode =
      [0x10000000, 0x20000011, 0x40010102, 0x505D0000, 0x7000004B] := by decide
theorem test_table_word : decodeTableWord 32 0x4001FFFF = some (.wrcfg 0x01 0xFFFF) ∧ decodeTableWord 32 0x90000000 = none := by
  decide
theorem test_no_two_rows_accept_one_word :
    opcodeRows.Pairwise fun r q => r.pattern &&& (r.mask &&& q.mask) ≠ q.pattern &&& (r.mask &&& q.mask) := by decide
theorem test_pseudo_lines :
    lineWords (.setdev 2) = [0x40010002] ∧ lineWords (.crcs [0x31]) = [0x60000000, 0x70000031] ∧
    lineWords (.setprof .B) = [0x40000001] ∧ lineWords (.selcat 4) = [0x40020004] := by decide
theorem test_register_names :
    lineWords (.rdreg (.named (.frame 27))) = [0x505B0000] ∧ lineWords (.rdreg (.named (.almout 0))) = [0x50200000] := by
  decide

/-! ## The step (95_test_vectors.md sections 2.7 and 2.8) -/

theorem test_fetched_word_runs_first :
    step (State.reset.withFetchWord 32 0x40010102) =
      .next { State.reset with deviceCount := 0x02 } := by rfl
theorem test_illegal_word_leaves_its_event :
    (nextOf (step (presenting 0xF0000000))).events = [.illegalCmd 0xF0000000] ∧
    (nextOf (step (presenting 0xF0000000))).lastEvt = 0x8 := by decide +kernel
theorem test_decode_comes_before_the_profile_check :
    (nextOf (step { presenting 0x21000005 with profile := .B })).events = [.illegalCmd 0x21000005] := by decide +kernel

/-! ## One small state per command -/

theorem test_nop : nextOf (exec .nop { State.reset with rdata := 0x1234, lastEvt := 0xA }) = { State.reset with lastEvt := 0xA } := by
  decide +kernel
/-- SRST keeps DEVCNT and CATSEL and clears LAST_EVT (section 2.7 rows 17 to 20). -/
theorem test_srst :
    let t := nextOf (exec .srst { afterF1 with deviceCount := 2, cat := 0xF, profile := .B, crcAcc := 0x1234 })
    t.deviceCount = 2 ∧ t.cat = 0xF ∧ t.profile = .B ∧ t.lastEvt = 0 ∧ t.frm = .cleared ∧ t.alm = .cleared ∧
    t.crcCalc = 0 ∧ t.crcAcc = 0xFFFF := by decide +kernel

/-- The example of R130. -/
theorem test_pushb_drops_one_byte :
    let t := nextOf (exec (.pushb 0x11) { State.reset with buf := [0x00, 0x01, 0x04, 0x24] })
    t.buf = [0x01, 0x04, 0x24, 0x11] ∧ t.events = [.hdrDrop] ∧ statusWord t = 0x0420 := by decide +kernel
/-- F1 with one device (section 2.4 row 1 and row 6). -/
theorem test_pushb_hands_off :
    afterF1.events = [.frameOk 0 0x12 f1] ∧ afterF1.crcCalc = 0x608B ∧ afterF1.crcRecv = 0x608B ∧ afterF1.buf = [] ∧
    (nextOf (exec (.pushb 0x60) { beforeF1 with deviceCount := 0 })).events = [.devRange 0] := by decide +kernel
/-- F3, the big-endian trailer (section 2.4 row 4). -/
theorem test_trailer_is_little_endian :
    (nextOf (exec (.pushb 0x8B) { State.reset with
      deviceCount := 2, buf := [0x01, 0x01, 0x12] ++ List.replicate 18 0x00 ++ [0x60] })).events =
      [.crcErr 0x608B 0x8B60] := by decide +kernel
/-- F2 with two devices (section 2.4 row 2). -/
theorem test_device_out_of_range :
    (nextOf (exec (.pushb 0x82) { State.reset with
      deviceCount := 2, buf := [0x03, 0x01, 0x12] ++ List.replicate 18 0x00 ++ [0xA8] })).events =
      [.devRange 2] := by decide +kernel
/-- The header rows of section 2.3. -/
theorem test_headers :
    [((0x01, 0x04, 0x24) : Byte × Byte × Byte), (0x10, 0x04, 0x34), (0x01, 0x01, 0x12), (0x00, 0x04, 0x24),
      (0x11, 0x04, 0x24), (0x01, 0x04, 0x12), (0x01, 0x01, 0x24), (0x01, 0x03, 0x24), (0x01, 0x04, 0x25),
      (0x01, 0x01, 0x34)].map (fun h => hdrOkA h.1 h.2.1 h.2.2) =
      [true, true, true, false, false, false, false, false, false, false] := by decide

/-- B1 (section 2.5), with the bus value the section writes out. -/
theorem test_pushblk_accepts :
    busOf (block 0xAA 0x02 0x12 0x55 0x81 0xB5) = 0xB5810000000000000000000000000000000000000000000000000000551202AA ∧
    (let t := pushBlock refParams (withBlock (block 0xAA 0x02 0x12 0x55 0x81 0xB5))
     t.frm.dev = 1 ∧ t.frm.rtype = 0x12 ∧ t.frm.valid = true ∧ t.alm.valid = true ∧ t.crcCalc = 0xB581) := by
  decide +kernel
/-- B2, B3, B5 and the last row of section 2.8. -/
theorem test_pushblk_check_order :
    (pushBlock refParams (withBlock (block 0x7E 0x02 0x12 0x55 0x81 0xB5))).events = [.blkReject] ∧
    (pushBlock refParams (withBlock (block 0xAA 0x00 0x12 0x55 0x00 0x00))).events = [.devRange (-1)] ∧
    (pushBlock refParams (withBlock (block 0xAA 0x02 0x12 0x55 0x7E 0xB5))).events = [.crcErr 0xB581 0xB57E] ∧
    (pushBlock refParams (withBlock (block 0xAA 0x05 0x12 0x55 0x00 0x00))).events = [.devRange 4] := by decide +kernel

theorem test_wrcfg_drops_reserved_bits :
    (nextOf (exec (.wrcfg 0x02 0xFFFF) State.reset)).cat = 0xF ∧
    (nextOf (exec (.wrcfg 0x08 0x0000) State.reset)).events = [.badReg 0x08] := by decide +kernel
theorem test_wrcfg_profile_change_empties_buf :
    (nextOf (exec (.wrcfg 0x00 0x0001) lockedAt40)).buf = [] ∧
    (nextOf (exec (.wrcfg 0x00 0xFFFE) lockedAt40)).buf.length = 40 := by decide +kernel
/-- STATUS after a 0x12 frame, LASTFRM and FRAME[11] (section 2.4, R35). -/
theorem test_rdreg :
    (nextOf (exec (.rdreg 0x08) afterF1)).rdata = 0x0013 ∧ (nextOf (exec (.rdreg 0x09) afterF1)).rdata = 0x1200 ∧
    (nextOf (exec (.rdreg 0x4B) afterF1)).rdata = 0x0060 ∧ (nextOf (exec (.rdreg 0x0A) afterF1)).rdata = 0x0017 := by
  decide +kernel
theorem test_rdreg_unmapped : (nextOf (exec (.rdreg 0x5D) State.reset)).events = [.badReg 0x5D] := by decide +kernel
theorem test_crcclr : (nextOf (exec .crcclr { State.reset with crcAcc := 0x807E })).crcAcc = 0xFFFF := by decide +kernel
theorem test_crcb : (nextOf (exec (.crcb 0x01) State.reset)).crcAcc = 0x807E := by decide +kernel

/-! ## CRC and alarm vectors (95_test_vectors.md sections 1, 2.2 and 2.6) -/

theorem test_crc_of_thirty_zeros : crc crcTableA (List.replicate 30 0x00) = 0x4FFE := by decide +kernel
theorem test_table_entries :
    crcTableA 0x01 = 0xC0C1 ∧ crcTableA 0x7F = 0xE041 ∧ crcTableA 0x80 = 0xA001 ∧ crcTableA 0xFF = 0x4040 := by
  decide +kernel
theorem test_alarm_categories :
    (List.range 11).map (fun c => readRef (alarmState (BitVec.ofNat 4 c)) 0x20) =
      [0x8005, 0x0001, 0x0040, 0x00FF, 0x8003, 0x0001, 0x0000, 0x0002, 0x0110, 0x0000, 0x0000] := by decide +kernel
theorem test_alarm_counts :
    (List.range 11).map (fun c => readRef (alarmState (BitVec.ofNat 4 c)) 0x0E) =
      [0x0301, 0x0101, 0x0101, 0x0801, 0x0301, 0x0101, 0x0001, 0x0101, 0x0201, 0x0001, 0x0001] := by decide +kernel
theorem test_alarm_lists :
    labels refParams (alarmState 0).alm .alarm = [0, 2, 15] ∧ cells refParams (alarmState 0).alm .vlow = [1, 2, 16] ∧
    compose (cells refParams (alarmState 0).alm .vlow) (cells refParams (alarmState 0).alm .vhigh) =
      [.item 1, .item 2, .item 16, .sep, .item 1] := by decide +kernel

/-! ## Witnesses: the hypotheses of each statement are met together -/

theorem witness_DecodeOfEncode : (Instr.wrcfg 0xFF 0xFFFF).wellFormed = true := by decide
theorem witness_EncodeOfDecode : decode 0x200000FF = .ok (.pushb 0xFF) := by decide
theorem witness_IllegalWords :
    decode 0x80000000 = .error .reservedOpcode ∧ decode 0x01000000 = .error .reservedBits ∧
    decode 0x50000001 = .error .nonzeroField ∧ (presenting 0x80000000).resetLine = false ∧
    (presenting 0x80000000).inputs = .command 0x80000000 0 :: [] := by decide
theorem witness_AssemblyLines :
    (AsmLine.pushblk (List.replicate 32 255)).wellFormed = true ∧
    ([0, 255] : List Nat).all (· < 256) = true ∧ (255 < 256 ∧ 65535 < 65536 ∧ 255 ≤ 255 ∧ 15 ≤ 15) ∧
    4294967295 < 4294967296 ∧ (AsmLine.setdev 255).wellFormed = true ∧ ∀ v, AsmLine.setdev 255 ≠ .word v :=
  ⟨by decide, by decide, by decide, by decide, by decide, fun _ h => AsmLine.noConfusion h⟩
theorem witness_StepExecutes :
    (presenting 0x70000037).resetLine = false ∧ (presenting 0x70000037).inputs = .command 0x70000037 0 :: [] ∧
    decode 0x70000037 = .ok (.crcb 0x37) := by decide
theorem witness_ResetInput :
    ({ State.reset with inputs := [.resetLine true] } : State).inputs = .resetLine true :: [] ∧
    ({ presenting 0 with resetLine := true } : State).resetLine = true ∧
    ({ presenting 0 with resetLine := true } : State).inputs = .command 0 0 :: [] ∧
    ({ State.reset with inputs := [.resetLine false], resetLine := true } : State).inputs = .resetLine false :: [] := by
  decide
theorem witness_ReleaseWithoutReset :
    ({ State.reset with inputs := [.resetLine false] } : State).resetLine = false ∧
    ({ State.reset with inputs := [.resetLine false] } : State).inputs = .resetLine false :: [] := by decide
theorem witness_TheBlockNeverStops :
    State.reset.inputs = [] ∧ (presenting 0).resetLine = false ∧ (presenting 0).inputs = .command 0 0 :: [] := by decide
theorem witness_LastEvent :
    exec .pushblk State.reset = .next { State.reset with events := [.wrongProfile 0x30000000], lastEvt := 0x9 } ∧
    Instr.pushblk ≠ .srst := ⟨by rfl, by decide⟩
theorem witness_BlockBus : Instr.nop ≠ .pushblk ∧ exec .nop State.reset = .next State.reset := ⟨by decide, by rfl⟩
theorem witness_NopEncoding : (0x00000001 : CmdWord).extractLsb' 28 4 = 0 ∧ (0x00000001 : CmdWord) ≠ 0 := by decide
theorem witness_CrcclrEncoding :
    (0x60000001 : CmdWord).extractLsb' 28 4 = 0x6 ∧ (0x60000001 : CmdWord) ≠ 0x60000000 := by decide
theorem witness_CrcbEncoding :
    (0x70000100 : CmdWord).extractLsb' 28 4 = 0x7 ∧ (0x70000100 : CmdWord).extractLsb' 8 20 ≠ 0 := by decide
theorem witness_CrcRegisters :
    exec (.crcb 0x01) State.reset = .next (nextOf (exec (.crcb 0x01) State.reset)) ∧
    (nextOf (exec (.crcb 0x01) State.reset)).crcAcc ≠ State.reset.crcAcc ∧
    exec (.pushb 0x60) beforeF1 = .next afterF1 ∧ afterF1.crcCalc ≠ beforeF1.crcCalc ∧
    afterF1.crcRecv ≠ beforeF1.crcRecv := ⟨by rfl, by decide +kernel, by rfl, by decide +kernel, by decide +kernel⟩
theorem witness_AccessOutside :
    0x02 < (0x03 : BitVec 8).toNat ∧
    ¬ ((0x5D : BitVec 8).toNat ≤ 0x02 ∨ (0x08 ≤ (0x5D : BitVec 8).toNat ∧ (0x5D : BitVec 8).toNat ≤ 0x0E) ∨
      (0x20 ≤ (0x5D : BitVec 8).toNat ∧ (0x5D : BitVec 8).toNat ≤ 0x2F) ∨
      (0x40 ≤ (0x5D : BitVec 8).toNat ∧ (0x5D : BitVec 8).toNat ≤ 0x5C)) := by decide
theorem witness_RdregReads : (15 : Nat) < 16 ∧ (28 : Nat) < 29 := by decide
theorem witness_ConfigurationWriters :
    exec (.wrcfg 0x00 1) State.reset = .next { State.reset with profile := .B } ∧ Profile.B ≠ State.reset.profile ∧
    exec (.wrcfg 0x01 7) State.reset = .next { State.reset with deviceCount := 7 } ∧ 7 ≠ State.reset.deviceCount ∧
    exec (.wrcfg 0x02 7) State.reset = .next { State.reset with cat := 7 } ∧ 7 ≠ State.reset.cat :=
  ⟨by rfl, by decide, by rfl, by decide, by rfl, by decide⟩
theorem witness_WrongProfile :
    ({ State.reset with profile := .B } : State).profile = .B ∧ State.reset.profile = .A := by decide
theorem witness_HeaderLengths :
    hdrOkA 0x01 0x04 0x24 = true ∧ hdrOkA 0x10 0x04 0x34 = true ∧ hdrOkA 0x10 0x01 0x12 = true := by decide
theorem witness_PushbFollows : lockedAt40.profile = .A := by decide
theorem witness_SyncInvariant :
    SyncInv { lockedAt40 with inputs := [.command 0x200000FF 0] } ∧
    step { lockedAt40 with inputs := [.command 0x200000FF 0] } =
      .next (nextOf (exec (.pushb 0xFF) lockedAt40)) ∧
    (nextOf (exec (.pushb 0xFF) lockedAt40)).buf = [] := by
  refine ⟨.inr ⟨by decide, by decide, by decide⟩, by rfl, by decide +kernel⟩
theorem witness_PushbUnder :
    SyncInv lockedAt40 ∧ exec (.pushb 0xFF) lockedAt40 = .next (nextOf (exec (.pushb 0xFF) lockedAt40)) :=
  ⟨.inr ⟨by decide, by decide, by decide⟩, by rfl⟩
theorem witness_LockedWindow :
    let s : State := { State.reset with buf := [0x05, 0x04, 0x24, 0x01, 0x01] }
    s.profile = .A ∧ headerAt s.buf ∧ 5 ≤ s.buf.length ∧
    s.buf.length + ([0x12] ++ List.replicate 34 (0x00 : Byte)).length < headerLenA s.buf := by decide
theorem witness_GarbageThenFrame :
    State.reset.profile = .A ∧ State.reset.buf = [] ∧ headerAt (f1Body ++ [0x60]) ∧
    (f1Body ++ [0x60]).length = headerLenA (f1Body ++ [0x60]) ∧
    ∀ k, k < ([0x00, 0x05, 0x04] : List Byte).length → ¬ headerAt (([0x00, 0x05, 0x04] ++ f1Body ++ [0x60]).drop k) := by
  decide
theorem witness_ValidFrame :
    let s : State := { State.reset with deviceCount := 1 }
    s.profile = .A ∧ s.buf = [] ∧ headerAt f1 ∧ f1.length = headerLenA f1 ∧
    crc crcTableA (f1.take (f1.length - 2)) = f1.getD (f1.length - 1) 0 ++ f1.getD (f1.length - 2) 0 ∧
    (f1.getD 0 0).toNat ≤ s.deviceCount.toNat := by decide +kernel
theorem witness_FrameFields : (31 : Nat) < 32 := by decide
theorem witness_PushblkChecks :
    (withBlock (block 0xAA 0x02 0x12 0x55 0x81 0xB5)).profile = .B ∧ State.reset.profile = .A ∧
    (0x30000001 : CmdWord).extractLsb' 28 4 = 0x3 ∧ (0x30000001 : CmdWord) ≠ 0x30000000 := by decide
theorem witness_PushblkEmits :
    exec .pushblk State.reset = .next { State.reset with events := [.wrongProfile 0x30000000], lastEvt := 0x9 } := by rfl
theorem witness_LatchesChange :
    exec (.pushb 0x60) beforeF1 = .next afterF1 ∧ Instr.pushb 0x60 ≠ .srst ∧ afterF1.frm ≠ beforeF1.frm ∧
    afterF1.alm ≠ beforeF1.alm := ⟨by rfl, by decide, by decide +kernel, by decide +kernel⟩
theorem witness_NoDevice :
    ({ beforeF1 with deviceCount := 0 } : State).deviceCount = 0 ∧
    exec (.pushb 0x60) { beforeF1 with deviceCount := 0 } =
      .next (nextOf (exec (.pushb 0x60) { beforeF1 with deviceCount := 0 })) := ⟨by rfl, by rfl⟩

/-- A state with both latches valid meets the latch invariant, and steps. -/
theorem witness_LatchesGenuine :
    LatchInv Config.params afterF1 ∧ afterF1.frm.valid = true ∧ afterF1.alm.valid = true ∧
    step afterF1 = .next afterF1 := by
  have hf : latchFrame afterF1.frm = f1 := by decide +kernel
  refine ⟨⟨⟨?_, fun _ => ?_⟩, ⟨?_, fun _ => ⟨by decide +kernel, fun k hk => ?_⟩⟩,
    ⟨fun _ => by decide +kernel, fun _ _ => by decide +kernel⟩⟩, by decide +kernel, by decide +kernel, by rfl⟩
  · decide +kernel
  · rw [hf]
    refine ⟨⟨by decide +kernel, by decide +kernel⟩, by decide +kernel, by decide +kernel, by decide +kernel,
      by decide +kernel, by decide +kernel, fun k hk => ?_⟩
    by_cases h : k < 57
    · have all : ∀ j : Fin 57, 23 ≤ j.val → afterF1.frm.bytes[j.val]?.getD 0 = 0 := by decide +kernel
      exact all ⟨k, h⟩ hk
    · simp [h]
  · decide +kernel
  · by_cases h : k < 26
    · have all : ∀ j : Fin 26, 18 ≤ j.val → afterF1.alm.p[j.val]?.getD 0 = 0 := by decide +kernel
      exact all ⟨k, h⟩ hk
    · simp [h]

theorem witness_EventInvariant : EventInv afterF1 ∧ step afterF1 = .next afterF1 := by
  refine ⟨⟨by decide +kernel, fun e he => ?_⟩, by rfl⟩
  have h1 : afterF1.events.getLast? = some (.frameOk 0 0x12 f1) := by decide +kernel
  have h2 : afterF1.lastEvt = 0x1 := by decide +kernel
  rw [h1] at he
  cases he
  exact h2
theorem witness_AlarmMaps :
    7 ∈ mapCells (refForm.toMap 18) .bal ∧ refForm.wellFormed 18 = true ∧ (8 < 18 ∧ 7 < 8) ∧
    ∀ c : CellCat, 8 ∉ refForm.cells c := by
  refine ⟨by decide, by decide, by decide, fun c => ?_⟩
  cases c <;> decide
theorem witness_RankSequences : (7 : Nat) < 8 := by decide
theorem witness_SelectedVectorBits :
    9 ≤ (alarmState 9).cat.toNat ∧ (alarmState 0).cat.toNat = 0 ∧ (alarmState 8).cat.toNat = 8 := by decide +kernel

/-- A variant A alarm latch whose payload byte 8 or 13 is the given one. -/
def statusByte (j : Nat) (v : Byte) : AlarmLatch :=
  { AlarmLatch.cleared with p := (Vector.replicate 26 0).setIfInBounds j v, plen := 18, valid := true }

theorem refLabel_fet {j i : Nat} {id : LabelId} (h : profileLabel refParams .A j i = some (.fet, id)) : j = 13 := by
  have b := mapLabel_bounds _ h
  have all : ∀ (j : Fin 18) (i : Fin 8), (mapLabel refParams.alarmMapA j.val i.val).map (·.1) = some .fet → j.val = 13 := by
    decide +kernel
  exact all ⟨j, b.1⟩ ⟨i, b.2⟩ (by show (profileLabel refParams .A j i).map _ = _; rw [h]; rfl)

theorem witness_LabelByte :
    (statusByte 13 0x01).valid = true ∧
    (∀ i, i < 8 → profileLabel refParams (statusByte 13 0x01).prof 13 i = some (.fet, 40 + i)) ∧
    (statusByte 13 0x01).p[13]?.getD 0 = 0x01 ∧
    (∀ j' i', j' ≠ 13 → (∃ id, profileLabel refParams (statusByte 13 0x01).prof j' i' = some (.fet, id)) →
      ((statusByte 13 0x01).p[j']?.getD 0).getLsbD i' = false) ∧
    (statusByte 13 0xFF).p[13]?.getD 0 = 0xFF ∧
    (∀ j' i' id, profileLabel refParams (statusByte 13 0xFF).prof j' i' = some (.fet, id) → j' = 13) :=
  ⟨by decide, by decide +kernel, by decide, fun _ _ hne ⟨_, h⟩ => absurd (refLabel_fet h) hne, by decide,
    fun _ _ _ h => refLabel_fet h⟩
theorem witness_Composition : ([1] : List Nat) ≠ [] ∧ ([2] : List Nat) ≠ [] ∧ ([] : List Nat) = [] := by decide
theorem witness_AlarmReads :
    (alarmState 3).alm = ({ alarmState 3 with crcAcc := 0, deviceCount := 9 } : State).alm ∧
    (alarmState 3).cat = ({ alarmState 3 with crcAcc := 0, deviceCount := 9 } : State).cat ∧
    (0x0E : BitVec 8).toNat = 0x0E ∧ (0x20 ≤ (0x2F : BitVec 8).toNat ∧ (0x2F : BitVec 8).toNat ≤ 0x2F) :=
  ⟨by rfl, by rfl, by decide, by decide⟩

end Sys2Proof.Tests
end

section
/-! SUPPORT. A step, one equation per kind of input, and the ports that a command leaves alone (00_scope.md R9,
45_host_commands.md R259, 60_exceptions.md R262 and R273). -/

namespace Sys2Proof.Machine

section
variable {s : State} {w : CmdWord} {blk : Bus} {rest : List HostInput}

theorem step_of_no_input (hin : s.inputs = []) : step s = .next s := by
  simp only [step, hin, holdState]

theorem step_of_reset_level {asserted : Bool} (hin : s.inputs = .resetLine asserted :: rest) :
    step s = driveReset asserted rest s := by
  simp only [step, hin]

theorem step_of_command_in_reset (hin : s.inputs = .command w blk :: rest) (hr : s.resetLine = true) :
    step s = .next (s.setInputs rest) := by
  simp only [step, hin, hr, if_true, ignoreCommand]

theorem step_of_decoded {i : Instr} (hin : s.inputs = .command w blk :: rest) (hr : s.resetLine = false)
    (hd : decode w = .ok i) : step s = exec i (takeCommand blk rest s) := by
  simp only [step, hin, hr, hd, Bool.false_eq_true, if_false]

theorem step_of_illegal {e : IllegalWord} (hin : s.inputs = .command w blk :: rest) (hr : s.resetLine = false)
    (hd : decode w = .error e) : step s = execIllegal w (takeCommand blk rest s) := by
  simp only [step, hin, hr, hd, Bool.false_eq_true, if_false]

end

/-- The ports that no command writes: the inputs still to come, the reset input and the block bus. -/
def SamePorts (s t : State) : Prop := t.inputs = s.inputs ∧ t.resetLine = s.resetLine ∧ t.bus = s.bus

section
variable (s : State)

theorem softReset_samePorts : SamePorts s (softReset s) := ⟨rfl, rfl, rfl⟩

theorem writeCtrl_samePorts (v : Half) : SamePorts s (writeCtrl v s) := by
  rcases writeCtrl_cases v s with ⟨_, h⟩ | ⟨_, h⟩ <;> rw [h] <;> exact ⟨rfl, rfl, rfl⟩

theorem writeConfig_samePorts (a : BitVec 8) (v : Half) : SamePorts s (writeConfig a v s) := by
  rcases writeConfig_cases a v s with ⟨_, h⟩ | ⟨_, h⟩ | ⟨_, h⟩ | ⟨_, h⟩ <;> rw [h]
  · exact writeCtrl_samePorts s v
  all_goals exact ⟨rfl, rfl, rfl⟩

theorem readRegister_samePorts (P : Params) (a : BitVec 8) : SamePorts s (readRegister P a s) := by
  rcases readRegister_cases P a s with ⟨_, _, h⟩ | ⟨_, h⟩ <;> rw [h] <;> exact ⟨rfl, rfl, rfl⟩

theorem effect_samePorts (i : Instr) : SamePorts s (effect i s) := by
  cases i with
  | nop => exact ⟨rfl, rfl, rfl⟩
  | srst => exact softReset_samePorts s
  | pushb b => exact ⟨pushByte_inputs _ s b, pushByte_resetLine _ s b, pushByte_bus _ s b⟩
  | pushblk => exact ⟨pushBlock_inputs _ s, pushBlock_resetLine _ s, pushBlock_bus _ s⟩
  | wrcfg a v => exact writeConfig_samePorts s a v
  | rdreg a => exact readRegister_samePorts s _ a
  | crcclr => exact ⟨rfl, rfl, rfl⟩
  | crcb b => exact ⟨rfl, rfl, rfl⟩

/-- The frame of R259 writes only the outputs and LAST_EVT, so an effect's ports are the command's. -/
theorem runCommand_completes {f : State → State} (hf : ∀ u, SamePorts u (f u)) :
    ∃ t, runCommand f s = .next t ∧ SamePorts s t := by
  obtain ⟨hin, hr, hbus⟩ := hf s.openOutput
  exact ⟨_, rfl, by simpa using hin, by simpa using hr, by simpa using hbus⟩

theorem exec_completes (i : Instr) : ∃ t, exec i s = .next t ∧ SamePorts s t := by
  have h := runCommand_completes s fun u => effect_samePorts u i
  rwa [runCommand, ← exec_is_effect] at h

theorem execIllegal_completes (w : CmdWord) : ∃ t, execIllegal w s = .next t ∧ SamePorts s t :=
  runCommand_completes s fun _ => ⟨rfl, rfl, rfl⟩

end

/-- A command that is executed is taken from the inputs, legal or not, and reset stays released (R9, R273). -/
theorem step_takes_command {s : State} {w : CmdWord} {blk : Bus} {rest : List HostInput}
    (hin : s.inputs = .command w blk :: rest) (hr : s.resetLine = false) :
    ∃ t, step s = .next t ∧ t.inputs = rest ∧ t.resetLine = false := by
  have run : ∃ t, step s = .next t ∧ SamePorts (takeCommand blk rest s) t := by
    cases hd : decode w with
    | ok i => rw [step_of_decoded hin hr hd]; exact exec_completes _ i
    | error e => rw [step_of_illegal hin hr hd]; exact execIllegal_completes _ w
  obtain ⟨t, ht, hins, hline, _⟩ := run
  exact ⟨t, ht, hins, hline.trans hr⟩

/-- No state is stuck (R262). -/
theorem step_answers (s : State) : ∃ t, step s = .next t := by
  rcases hin : s.inputs with _ | ⟨⟨w, blk⟩ | asserted, rest⟩
  · exact ⟨s, step_of_no_input hin⟩
  · cases hr : s.resetLine with
    | true => exact ⟨_, step_of_command_in_reset hin hr⟩
    | false =>
      obtain ⟨t, ht, _⟩ := step_takes_command hin hr
      exact ⟨t, ht⟩
  · exact ⟨_, step_of_reset_level hin⟩

/-- Settles O7: it is the equation of a step whose word decodes. -/
theorem stepExecutesTheDecodedCommand : Obligations.StepExecutesTheDecodedCommand := by
  intro s w blk rest i hr hin hd
  exact step_of_decoded hin hr hd

/-- Settles O10: every kind of input has its next state; nothing presented is held, a command is taken. -/
theorem theBlockNeverStops : Obligations.TheBlockNeverStops := by
  intro s
  obtain ⟨t, ht⟩ := step_answers s
  refine ⟨t, ht, fun hin => ?_, fun w blk rest hr hin => ?_⟩
  · exact Host.Outcome.next.inj (ht.symm.trans (step_of_no_input hin))
  · obtain ⟨u, hu, hports⟩ := step_takes_command hin hr
    cases hu.symm.trans ht
    exact hports

/-- Settles O11: the frame of R259 always answers, and no effect writes the inputs, the reset input or the bus. -/
theorem everyCommandCompletes : Obligations.EveryCommandCompletes :=
  fun i s => exec_completes s i

end Sys2Proof.Machine
end

section
/-! SUPPORT. What the effect of each command leaves as it was: the outputs are all that RDREG writes, and no command
but SRST writes LAST_EVT itself (45_host_commands.md R253, R255, R259). -/

namespace Sys2Proof.Machine

section
variable (P : Params) (a : BitVec 8) (v : Half) (s : State)

/-- RDREG writes the two outputs alone. -/
theorem readRegister_eq : readRegister P a s =
    { s with rdata := (readRegister P a s).rdata, events := (readRegister P a s).events } := by
  rcases readRegister_cases P a s with ⟨_, _, h⟩ | ⟨_, h⟩ <;> rw [h] <;> rfl

@[simp] theorem readRegister_profile : (readRegister P a s).profile = s.profile := by rw [readRegister_eq]
@[simp] theorem readRegister_deviceCount : (readRegister P a s).deviceCount = s.deviceCount := by rw [readRegister_eq]
@[simp] theorem readRegister_cat : (readRegister P a s).cat = s.cat := by rw [readRegister_eq]
@[simp] theorem readRegister_buf : (readRegister P a s).buf = s.buf := by rw [readRegister_eq]
@[simp] theorem readRegister_frm : (readRegister P a s).frm = s.frm := by rw [readRegister_eq]
@[simp] theorem readRegister_alm : (readRegister P a s).alm = s.alm := by rw [readRegister_eq]
@[simp] theorem readRegister_crcCalc : (readRegister P a s).crcCalc = s.crcCalc := by rw [readRegister_eq]
@[simp] theorem readRegister_crcRecv : (readRegister P a s).crcRecv = s.crcRecv := by rw [readRegister_eq]
@[simp] theorem readRegister_crcAcc : (readRegister P a s).crcAcc = s.crcAcc := by rw [readRegister_eq]
@[simp] theorem readRegister_lastEvt : (readRegister P a s).lastEvt = s.lastEvt := by rw [readRegister_eq]

/-- WRCFG writes the configuration, the buffer and its events alone. -/
theorem writeConfig_eq : writeConfig a v s =
    { s with
      profile := (writeConfig a v s).profile, deviceCount := (writeConfig a v s).deviceCount
      cat := (writeConfig a v s).cat, buf := (writeConfig a v s).buf, events := (writeConfig a v s).events } := by
  rcases writeConfig_cases a v s with ⟨_, h⟩ | ⟨_, h⟩ | ⟨_, h⟩ | ⟨_, h⟩ <;> rw [h]
  · rcases writeCtrl_cases v s with ⟨_, h⟩ | ⟨_, h⟩
    · rw [h]
    · rw [h]; rfl
  all_goals rfl

@[simp] theorem writeConfig_frm : (writeConfig a v s).frm = s.frm := by rw [writeConfig_eq]
@[simp] theorem writeConfig_alm : (writeConfig a v s).alm = s.alm := by rw [writeConfig_eq]
@[simp] theorem writeConfig_crcCalc : (writeConfig a v s).crcCalc = s.crcCalc := by rw [writeConfig_eq]
@[simp] theorem writeConfig_crcRecv : (writeConfig a v s).crcRecv = s.crcRecv := by rw [writeConfig_eq]
@[simp] theorem writeConfig_crcAcc : (writeConfig a v s).crcAcc = s.crcAcc := by rw [writeConfig_eq]
@[simp] theorem writeConfig_lastEvt : (writeConfig a v s).lastEvt = s.lastEvt := by rw [writeConfig_eq]

end

section
variable {i : Instr} (s : State)

/-- Only SRST writes LAST_EVT as its own effect; every other command leaves that to the frame of R259. -/
theorem effect_lastEvt (hi : i ≠ .srst) : (effect i s).lastEvt = s.lastEvt := by
  cases i with
  | srst => exact absurd rfl hi
  | pushb b => exact pushByte_lastEvt _ s b
  | pushblk => exact pushBlock_lastEvt _ s
  | wrcfg a v => exact writeConfig_lastEvt a v s
  | rdreg a => exact readRegister_lastEvt _ a s
  | nop | crcclr | crcb => rfl

theorem effect_crcAcc (hsrst : i ≠ .srst) (hclr : i ≠ .crcclr) (hcrcb : ∀ b, i ≠ .crcb b) :
    (effect i s).crcAcc = s.crcAcc := by
  cases i with
  | srst => exact absurd rfl hsrst
  | crcclr => exact absurd rfl hclr
  | crcb b => exact absurd rfl (hcrcb b)
  | nop => rfl
  | pushb b => exact pushByte_crcAcc _ s b
  | pushblk => exact pushBlock_crcAcc _ s
  | wrcfg a v => exact writeConfig_crcAcc a v s
  | rdreg a => exact readRegister_crcAcc _ a s

/-- A command other than WRCFG leaves the whole configuration. -/
theorem effect_configuration (hi : ∀ a v, i ≠ .wrcfg a v) :
    (effect i s).profile = s.profile ∧ (effect i s).deviceCount = s.deviceCount ∧ (effect i s).cat = s.cat := by
  cases i with
  | wrcfg a v => exact absurd rfl (hi a v)
  | pushb b => exact ⟨pushByte_profile _ s b, pushByte_deviceCount _ s b, pushByte_cat _ s b⟩
  | pushblk => exact ⟨pushBlock_profile _ s, pushBlock_deviceCount _ s, pushBlock_cat _ s⟩
  | rdreg a => exact ⟨readRegister_profile _ a s, readRegister_deviceCount _ a s, readRegister_cat _ a s⟩
  | nop | srst | crcclr | crcb => exact ⟨rfl, rfl, rfl⟩

end

/-- A property that does not speak of the ports the host drives, holds after reset, and is kept by every command and by
every illegal word, is kept by every step. -/
theorem step_keeps {Inv : State → Prop}
    (ports : ∀ (s : State) (l : List HostInput) (asserted : Bool) (blk : Bus), Inv s →
      Inv { s with inputs := l, resetLine := asserted, bus := blk })
    (reset : ∀ l, Inv (State.reset.setInputs l))
    (command : ∀ (i : Instr) (s t : State), exec i s = .next t → Inv s → Inv t)
    (illegal : ∀ (w : CmdWord) (s : State), Inv s → Inv ((s.openOutput.emit (.illegalCmd w)).setLastEvt 0x8))
    {s t : State} (h : Inv s) (hstep : step s = .next t) : Inv t := by
  rcases step_cases hstep with ⟨_, rfl⟩ | ⟨l, _, rfl⟩ | ⟨l, _, _, rfl⟩ | ⟨l, _, _, rfl⟩ | ⟨_, _, l, _, _, rfl⟩ |
    ⟨_, blk, l, i, _, _, _, hexec⟩ | ⟨w, blk, l, _, _, _, _, rfl⟩
  · exact h
  · exact ports s l true s.bus h
  · exact reset l
  · exact ports s l false s.bus h
  · exact ports s l s.resetLine s.bus h
  · exact command i _ t hexec (ports s l s.resetLine blk h)
  · exact illegal w _ (ports s l s.resetLine blk h)

end Sys2Proof.Machine
end

section
/-! SUPPORT. The synchronizer invariant of R138, kept by every command and so by every step (41_sync_rolling.md). -/

namespace Sys2Proof.Machine

open Sys2Proof.Safety

/-- The invariant speaks of PROFILE and the buffer alone. -/
theorem syncInv_of_same {s t : State} (h : SyncInv s) (hp : t.profile = s.profile) (hb : t.buf = s.buf) :
    SyncInv t := by
  unfold SyncInv
  rw [hp, hb]
  exact h

/-- An empty buffer meets the invariant under both profiles. -/
theorem syncInv_of_empty {s : State} (hb : s.buf = []) : SyncInv s := by
  unfold SyncInv
  cases s.profile <;> simp [hb]

/-- Whatever buffer the retry loop starts on, it ends in a short one, a locked one, or an empty one. -/
theorem syncLoop_syncInv (P : Params) (buf : List Byte) {s : State} (hp : s.profile = .A) :
    SyncInv (syncLoop P buf s) := by
  obtain ⟨k, _, _, ⟨waiting, h⟩ | ⟨_, _, _, h⟩⟩ := syncLoop_cases P buf s
  · have inv : (buf.drop k).length ≤ 4 ∨ (headerAt (buf.drop k) ∧ 5 ≤ (buf.drop k).length ∧
        (buf.drop k).length < headerLenA (buf.drop k)) :=
      waiting.imp Nat.le_of_lt_succ fun ⟨h5, hdr, hlt⟩ => ⟨hdr, h5, hlt⟩
    rw [h]
    unfold SyncInv
    simpa only [State.setBuf_profile, State.setEvents_profile, State.setBuf_buf, hp] using inv
  · exact syncInv_of_empty (by rw [h]; simp)

theorem pushByte_syncInv (P : Params) (b : Byte) {s : State} (h : SyncInv s) : SyncInv (pushByte P b s) := by
  unfold pushByte
  split
  · exact syncInv_of_same h rfl rfl
  · rename_i hp
    dsimp only
    split <;> exact syncLoop_syncInv P _ hp

/-- A changed PROFILE empties the buffer (R257), so a write of the configuration keeps the invariant. -/
theorem writeConfig_syncInv (a : BitVec 8) (v : Half) {s : State} (h : SyncInv s) : SyncInv (writeConfig a v s) := by
  rcases writeConfig_cases a v s with ⟨_, e⟩ | ⟨_, e⟩ | ⟨_, e⟩ | ⟨_, e⟩ <;> rw [e]
  · rcases writeCtrl_cases v s with ⟨_, e⟩ | ⟨_, e⟩ <;> rw [e]
    · exact h
    · exact syncInv_of_empty rfl
  all_goals exact syncInv_of_same h rfl rfl

theorem effect_syncInv (i : Instr) {s : State} (h : SyncInv s) : SyncInv (effect i s) := by
  cases i with
  | pushb b => exact pushByte_syncInv _ b h
  | wrcfg a v => exact writeConfig_syncInv a v h
  | srst => exact syncInv_of_empty rfl
  | pushblk => exact syncInv_of_same h (pushBlock_profile _ s) (pushBlock_buf _ s)
  | rdreg a => exact syncInv_of_same h (readRegister_profile _ a s) (readRegister_buf _ a s)
  | nop | crcclr | crcb => exact syncInv_of_same h rfl rfl

theorem exec_syncInv {i : Instr} {s t : State} (he : exec i s = .next t) (h : SyncInv s) : SyncInv t := by
  rw [exec_next_iff.mp he]
  have opened : SyncInv s.openOutput := syncInv_of_same h rfl rfl
  exact syncInv_of_same (effect_syncInv i opened) (State.closeOutput_profile _) (State.closeOutput_buf _)

/-- Settles O34: a command keeps the invariant by its effect, and every other step leaves PROFILE and the buffer, or
gives the empty buffer of reset. -/
theorem everyStepKeepsTheSyncInvariant : Obligations.EveryStepKeepsTheSyncInvariant := fun _ _ =>
  step_keeps (fun _ _ _ _ h => syncInv_of_same h rfl rfl) (fun _ => syncInv_of_empty rfl)
    (fun _ _ _ => exec_syncInv) (fun _ _ h => syncInv_of_same h (by simp) (by simp))

end Sys2Proof.Machine
end

section
/-! SUPPORT. Everything a command can do to the latches and to CRC_CALC and CRC_RECV: nothing, or one verdict of the
validator on a frame of a legal shape (41_sync_rolling.md R130, 42_sync_block.md R160, 43_validator.md R200 to R207).
-/

namespace Sys2Proof.Machine

open Sys2Proof.Safety

/-- No event of the list accepts a frame. -/
def NoFrameOk (l : List Event) : Prop := ∀ d r f, .frameOk d r f ∉ l

theorem noFrameOk_nil : NoFrameOk [] := fun _ _ _ => List.not_mem_nil

theorem noFrameOk_append {l m : List Event} : NoFrameOk (l ++ m) ↔ NoFrameOk l ∧ NoFrameOk m := by
  simp only [NoFrameOk, List.mem_append, not_or, forall_and]

theorem noFrameOk_replicate {k : Nat} {e : Event} (he : NoFrameOk [e]) : NoFrameOk (List.replicate k e) :=
  fun d r f hm => he d r f (by rw [List.eq_of_mem_replicate hm]; exact List.mem_singleton_self e)

/-- What a synchronizer does to the state before any verdict: it writes the buffer and emits events that accept no
frame. -/
def SyncOnly (s u : State) : Prop := ∃ buf l, NoFrameOk l ∧ u = (s.setBuf buf).setEvents (s.events ++ l)

theorem syncOnly_refl (s : State) : SyncOnly s s :=
  ⟨s.buf, [], noFrameOk_nil, by simp [State.setBuf, State.setEvents]⟩

theorem syncOnly_emit (s : State) {e : Event} (he : NoFrameOk [e]) : SyncOnly s (s.emit e) := ⟨s.buf, [e], he, rfl⟩

theorem SyncOnly.trans {s u v : State} (h : SyncOnly s u) (h' : SyncOnly u v) : SyncOnly s v := by
  obtain ⟨_, l, hl, rfl⟩ := h
  obtain ⟨buf, m, hm, rfl⟩ := h'
  exact ⟨buf, l ++ m, noFrameOk_append.mpr ⟨hl, hm⟩, by simp [State.setBuf, State.setEvents]⟩

/-- The synchronizer alone, or the verdict it hands a frame of a legal shape to. -/
def SyncThenVerdict (P : Params) (s t : State) : Prop :=
  SyncOnly s t ∨ ∃ f prof u, SyncOnly s u ∧ frameShape P f prof ∧ t = validate P f prof u

theorem SyncThenVerdict.after {P : Params} {s u t : State} (h : SyncOnly s u) :
    SyncThenVerdict P u t → SyncThenVerdict P s t
  | .inl h' => .inl (h.trans h')
  | .inr ⟨f, prof, v, h', shape, e⟩ => .inr ⟨f, prof, v, h.trans h', shape, e⟩

section
variable {l : List Byte} {n : Nat}

theorem frameAt_take {k : Nat} (hk : k < n) : frameAt (l.take n) k = frameAt l k := by
  simp only [frameAt, List.getD_eq_getElem?_getD, List.getElem?_take, hk, if_true]

/-- The first three bytes decide a header, so it is one at the head of any bytes that begin with them. -/
theorem headerAt_take (hn : 3 ≤ n) : headerAt (l.take n) ↔ headerAt l := by
  simp only [headerAt, frameAt_take (l := l) (show 0 < n by omega), frameAt_take (l := l) (show 1 < n by omega),
    frameAt_take (l := l) (show 2 < n by omega)]

theorem headerLenA_take (hn : 3 ≤ n) : headerLenA (l.take n) = headerLenA l := by
  simp only [headerLenA, frameAt_take (l := l) (show 1 < n by omega), frameAt_take (l := l) (show 2 < n by omega)]

theorem headerLenA_bounds (h : headerAt l) : 23 ≤ headerLenA l ∧ headerLenA l ≤ 57 := by
  rcases lenA_of_header h with e | e | e <;> rw [headerLenA, e] <;> decide

end

/-- The bytes that a locked header hands off are a frame of its shape. -/
theorem frameShape_of_handoff (P : Params) {l : List Byte} (h : headerAt l) (hl : headerLenA l ≤ l.length) :
    frameShape P (l.take (headerLenA l)) .A := by
  have bounds := headerLenA_bounds h
  refine ⟨(headerAt_take (by omega)).mpr h, ?_⟩
  rw [headerLenA_take (by omega), List.length_take, Nat.min_eq_left hl]

theorem syncLoop_syncThenVerdict (P : Params) (buf : List Byte) (s : State) :
    SyncThenVerdict P s (syncLoop P buf s) := by
  have drops (k : Nat) : NoFrameOk (List.replicate k .hdrDrop) := noFrameOk_replicate (by simp [NoFrameOk])
  obtain ⟨k, _, _, ⟨_, h⟩ | ⟨_, hdr, hlen, h⟩⟩ := syncLoop_cases P buf s
  · exact .inl ⟨buf.drop k, _, drops k, h⟩
  · exact .inr ⟨_, .A, _, ⟨[], _, drops k, rfl⟩, frameShape_of_handoff P hdr hlen, h⟩

theorem pushByte_syncThenVerdict (P : Params) (b : Byte) (s : State) : SyncThenVerdict P s (pushByte P b s) := by
  unfold pushByte
  split
  · exact .inl (syncOnly_emit s (by simp [NoFrameOk]))
  · dsimp only
    split
    · exact (syncLoop_syncThenVerdict P _ _).after (syncOnly_emit s (by simp [NoFrameOk]))
    · exact syncLoop_syncThenVerdict P _ s

theorem busBytes_length (blk : Bus) : (busBytes blk).length = 32 := by simp [busBytes, Config.blkB]

theorem pushBlock_syncThenVerdict (P : Params) (s : State) : SyncThenVerdict P s (pushBlock P s) := by
  unfold pushBlock
  split
  · exact .inl (syncOnly_emit s (by simp [NoFrameOk]))
  · dsimp only
    split
    · exact .inl (syncOnly_emit s (by simp [NoFrameOk]))
    · rename_i marker
      split
      · exact .inl (syncOnly_emit s (by simp [NoFrameOk]))
      · exact .inr ⟨_, .B, s, syncOnly_refl s, ⟨busBytes_length s.bus, by simpa using marker⟩, rfl⟩

/-- The alarm latch of an accepted alarm record (R234). -/
def latchedAlarm (f : List Byte) (prof : Profile) (dev : Byte) : AlarmLatch :=
  { p := Vector.ofFn fun k => (framePayload f prof).getD k.val 0
    plen := BitVec.ofNat 8 (framePayload f prof).length
    dev := dev
    prof := prof
    valid := true }

theorem alarmLatch_alm (f : List Byte) (prof : Profile) (dev : Byte) (s : State) :
    (alarmLatch f prof dev s).alm = latchedAlarm f prof dev := rfl

/-- The commands that carry the stream (R130, R160). -/
def IsPush (i : Instr) : Prop := (∃ b, i = .pushb b) ∨ i = .pushblk

/-- The last event of the list rejects a frame (R202, R203). -/
def EndsInRejection (l : List Event) : Prop :=
  ∃ e, l.getLast? = some e ∧ ((∃ c r, e = .crcErr c r) ∨ ∃ d, e = .devRange d)

/-- What a command other than SRST does from `s` to `t` to everything the validator writes. -/
inductive Judged (i : Instr) (s t : State) : Prop
  /-- No verdict: nothing the validator writes has changed. -/
  | noVerdict (frm : t.frm = s.frm) (alm : t.alm = s.alm) (crcCalc : t.crcCalc = s.crcCalc)
      (crcRecv : t.crcRecv = s.crcRecv) (events : NoFrameOk t.events)
  /-- CRC_ERR or DEV_RANGE: the latches have not changed (R205). -/
  | rejected (push : IsPush i) (frm : t.frm = s.frm) (alm : t.alm = s.alm) (events : NoFrameOk t.events)
      (last : EndsInRejection t.events)
  /-- FRAME_OK: a frame that passed every check is in the frame latch, an alarm record in the alarm latch (R207). -/
  | accepted (f : List Byte) (prof : Profile) (dev : Byte) (push : IsPush i)
      (shape : frameShape Config.params f prof)
      (crc : frameCrc Config.params f prof = frameTrailer f)
      (inRange : devInRange (deviceIndex Config.params f prof) s = true)
      (index : deviceIndex Config.params f prof = (dev.toNat : Int))
      (frm : t.frm = latchedFrame Config.params f prof dev)
      (alm : t.alm = if frameRtype Config.params f prof = alarmRtype then latchedAlarm f prof dev else s.alm)
      (last : t.events.getLast? = some (.frameOk dev (frameRtype Config.params f prof) f))

section
variable {i : Instr} {s u : State}

theorem judged_of_syncOnly (h0 : s.events = []) (h : SyncOnly s u) : Judged i s u := by
  obtain ⟨_, l, hl, rfl⟩ := h
  exact .noVerdict rfl rfl rfl rfl (by simpa [h0] using hl)

theorem judged_of_rejection {buf : List Byte} {l : List Event} {x y : Half} {e : Event} (hi : IsPush i)
    (h0 : s.events = []) (hl : NoFrameOk l) (he : NoFrameOk [e])
    (kind : (∃ c r, e = .crcErr c r) ∨ ∃ d, e = .devRange d) :
    Judged i s ((((s.setBuf buf).setEvents (s.events ++ l)).setCrcCheck x y).emit e) := by
  refine .rejected hi rfl rfl ?_ ⟨e, by simp, kind⟩
  simpa [h0] using noFrameOk_append.mpr ⟨hl, he⟩

theorem judged_of_validate {f : List Byte} {prof : Profile} (hi : IsPush i) (h0 : s.events = []) (h : SyncOnly s u)
    (shape : frameShape Config.params f prof) : Judged i s (validate Config.params f prof u) := by
  obtain ⟨_, l, hl, rfl⟩ := h
  rcases validate_cases Config.params f prof ((s.setBuf _).setEvents (s.events ++ l)) with
    ⟨_, e⟩ | ⟨_, _, e⟩ | ⟨crc, dev, e⟩ <;> rw [e]
  · exact judged_of_rejection hi h0 hl (by simp [NoFrameOk]) (.inl ⟨_, _, rfl⟩)
  · exact judged_of_rejection hi h0 hl (by simp [NoFrameOk]) (.inr ⟨_, rfl⟩)
  · rw [accept_eq, alarmLatch_alm]
    exact .accepted f prof _ hi shape crc dev (devInRange_ofInt dev).symm rfl rfl (by simp)

theorem judged_of_syncThenVerdict (hi : IsPush i) (h0 : s.events = []) (h : SyncThenVerdict Config.params s u) :
    Judged i s u := by
  obtain h | ⟨f, prof, v, h, shape, rfl⟩ := h
  · exact judged_of_syncOnly h0 h
  · exact judged_of_validate hi h0 h shape

theorem effect_judged (hi : i ≠ .srst) (h0 : s.events = []) : Judged i s (effect i s) := by
  have badReg (a : BitVec 8) : NoFrameOk [.badReg a] := by simp [NoFrameOk]
  cases i with
  | srst => exact absurd rfl hi
  | pushb b => exact judged_of_syncThenVerdict (.inl ⟨b, rfl⟩) h0 (pushByte_syncThenVerdict _ b s)
  | pushblk => exact judged_of_syncThenVerdict (.inr rfl) h0 (pushBlock_syncThenVerdict _ s)
  | nop | crcclr | crcb => exact .noVerdict rfl rfl rfl rfl (h0 ▸ noFrameOk_nil)
  | wrcfg a v =>
    refine .noVerdict (writeConfig_frm a v s) (writeConfig_alm a v s) (writeConfig_crcCalc a v s)
      (writeConfig_crcRecv a v s) ?_
    show NoFrameOk (writeConfig a v s).events
    rcases writeConfig_cases a v s with ⟨_, e⟩ | ⟨_, e⟩ | ⟨_, e⟩ | ⟨_, e⟩ <;> rw [e]
    · rcases writeCtrl_cases v s with ⟨_, e⟩ | ⟨_, e⟩ <;> rw [e] <;> simp [h0, noFrameOk_nil]
    all_goals simp [h0, noFrameOk_nil, badReg]
  | rdreg a =>
    refine .noVerdict (readRegister_frm _ a s) (readRegister_alm _ a s) (readRegister_crcCalc _ a s)
      (readRegister_crcRecv _ a s) ?_
    show NoFrameOk (readRegister Config.params a s).events
    rcases readRegister_cases Config.params a s with ⟨_, _, e⟩ | ⟨_, e⟩ <;> rw [e] <;>
      simp [h0, noFrameOk_nil, badReg]

/-- The frame of R259 writes nothing the validator writes, and leaves the events. -/
theorem Judged.framed (h : Judged i s.openOutput u) : Judged i s u.closeOutput := by
  cases h with
  | noVerdict frm alm hcalc hrecv events => exact .noVerdict (by simpa) (by simpa) (by simpa) (by simpa) (by simpa)
  | rejected push frm alm events last => exact .rejected push (by simpa) (by simpa) (by simpa) (by simpa)
  | accepted f prof dev push shape crc inRange index frm alm last =>
    exact .accepted f prof dev push shape crc inRange index (by simpa) (by simpa) (by simpa)

theorem exec_judged (he : exec i s = .next u) (hi : i ≠ .srst) : Judged i s u := by
  rw [exec_next_iff.mp he]
  exact (effect_judged hi rfl).framed

end

/-- Settles O44: only an acceptance writes a latch, and the alarm latch only for record type 0x12. -/
theorem latchesChangeOnlyByAcceptance : Obligations.LatchesChangeOnlyByAcceptance := by
  intro i s t he hi
  cases exec_judged he hi with
  | noVerdict frm alm | rejected _ frm alm => exact ⟨fun h => absurd frm h, fun h => absurd alm h⟩
  | accepted f prof dev _ _ _ _ _ _ alm last =>
    refine ⟨fun _ => ⟨_, _, _, last⟩, fun h => ?_⟩
    by_cases hr : frameRtype Config.params f prof = alarmRtype
    · rw [hr] at last
      exact ⟨_, _, last⟩
    · rw [if_neg hr] at alm
      exact absurd alm h

/-- Settles O45: an acceptance needs an index below DEVICE_COUNT. -/
theorem noDeviceNoAcceptance : Obligations.NoDeviceNoAcceptance := by
  intro i s t h0 he
  by_cases hi : i = .srst
  · rw [exec_next_iff.mp he, hi, State.closeOutput_events]
    exact noFrameOk_nil
  · cases exec_judged he hi with
    | noVerdict _ _ _ _ events | rejected _ _ _ events => exact events
    | accepted f prof dev _ _ _ inRange =>
      have bounds := devInRange_bounds inRange
      have no_device : s.deviceCount.toNat = 0 := by rw [h0]; rfl
      omega

/-- Settles O24: CRC_ACC has the writers that the effects show, and CRC_CALC and CRC_RECV change only with a verdict. -/
theorem crcRegistersHaveOnlyTheirWriters : Obligations.CrcRegistersHaveOnlyTheirWriters := by
  intro i s t he
  refine ⟨fun h => ?_, fun h => ?_⟩
  · by_contra others
    simp only [not_or, not_exists] at others
    obtain ⟨hclr, hsrst, hcrcb⟩ := others
    apply h
    rw [exec_next_iff.mp he, State.closeOutput_crcAcc, effect_crcAcc _ hsrst hclr hcrcb, State.openOutput_crcAcc]
  · by_cases hi : i = .srst
    · exact .inl hi
    right
    cases exec_judged he hi with
    | noVerdict _ _ hcalc hrecv => exact absurd h (by simp [hcalc, hrecv])
    | rejected push _ _ _ last =>
      obtain ⟨e, hlast, he⟩ := last
      exact ⟨push, e, hlast, he.imp_right .inl⟩
    | accepted f prof dev push _ _ _ _ _ _ last => exact ⟨push, _, last, .inr (.inr ⟨_, _, _, rfl⟩)⟩

end Sys2Proof.Machine
end

section
/-! SUPPORT. The latch invariant: what acceptance writes is genuine, so a step keeps both latches genuine (10_state.md
R37, R38; 43_validator.md R207; 44_alarm_decoder.md R234). -/

namespace Sys2Proof.Machine

open Sys2Proof.Safety

section
variable {n : Nat} {l : List Byte}

theorem ofFn_getD_eq (k : Nat) (hl : l.length ≤ n) :
    (Vector.ofFn fun j : Fin n => l.getD j.val 0)[k]?.getD 0 = l.getD k 0 := by
  by_cases hk : k < n
  · simp [hk]
  · simp [hk, List.getElem?_eq_none (show l.length ≤ k by omega)]

/-- A byte list copied into a vector is there whole. -/
theorem ofFn_getD_take (hl : l.length ≤ n) :
    (Vector.ofFn fun j : Fin n => l.getD j.val 0).toList.take l.length = l := by
  apply List.ext_getElem
  · simpa using hl
  · intro k _ hk
    simp [hk]

end

/-- The length of a frame of a legal shape (R79, R80). -/
theorem frameShape_length {P : Params} {f : List Byte} {prof : Profile} (h : frameShape P f prof) :
    5 ≤ f.length ∧ f.length ≤ 57 := by
  cases prof with
  | A =>
    obtain ⟨hdr, hlen⟩ := h
    have := headerLenA_bounds hdr
    omega
  | B =>
    obtain ⟨hlen, _⟩ := h
    omega

/-- A 0x12 header of variant A gives 23 bytes (R135). -/
theorem headerLenA_of_alarm {l : List Byte} (h : headerAt l) (hr : frameAt l 2 = 0x12) : headerLenA l = 23 := by
  simp only [headerAt, hdrOkA, hr, Bool.or_eq_true, Bool.and_eq_true, beq_iff_eq] at h
  rcases h with ⟨_, h | h⟩ | ⟨⟨_, h⟩, _⟩
  · exact absurd h (by decide)
  · exact absurd h (by decide)
  · rw [headerLenA, h, hr]
    decide

/-- The length of an alarm record's payload (R234). -/
def alarmPayloadLen : Profile → Nat
  | .A => 18
  | .B => 26

theorem alarmPayloadLen_le (prof : Profile) : alarmPayloadLen prof ≤ 26 := by cases prof <;> decide

section
variable {P : Params} {f : List Byte} {prof : Profile}

theorem framePayload_length : (framePayload f prof).length = f.length - 2 - headerLen prof := by
  simp [framePayload]

/-- The payload of an alarm record is the whole payload of its profile (R234). -/
theorem alarm_payload_length (shape : frameShape P f prof) (hr : frameRtype P f prof = alarmRtype) :
    (framePayload f prof).length = alarmPayloadLen prof := by
  rw [framePayload_length]
  cases prof with
  | A =>
    obtain ⟨hdr, hlen⟩ := shape
    rw [hlen, headerLenA_of_alarm hdr hr]
    rfl
  | B =>
    obtain ⟨hlen, _⟩ := shape
    rw [hlen]
    rfl

theorem latchedFrame_len (h : f.length ≤ 57) (dev : Byte) : (latchedFrame P f prof dev).len.toNat = f.length := by
  simp only [latchedFrame, BitVec.toNat_ofNat]
  omega

/-- The frame latch gives the accepted frame back. -/
theorem latchFrame_latchedFrame (h : f.length ≤ 57) (dev : Byte) : latchFrame (latchedFrame P f prof dev) = f := by
  rw [latchFrame, latchedFrame_len h]
  exact ofFn_getD_take h

theorem frameGenuine_latchedFrame {dev : Byte} (shape : frameShape P f prof)
    (crc : frameCrc P f prof = frameTrailer f) (index : deviceIndex P f prof = (dev.toNat : Int))
    (range : dev.toNat < 255) : FrameGenuine P (latchedFrame P f prof dev) := by
  obtain ⟨_, hlen⟩ := frameShape_length shape
  refine ⟨fun invalid => Bool.noConfusion invalid, fun _ => ?_⟩
  rw [latchFrame_latchedFrame hlen, latchedFrame_len hlen]
  refine ⟨shape, rfl, crc, index, range, rfl, fun k hk => ?_⟩
  have beyond : (latchedFrame P f prof dev).bytes[k]?.getD 0 = f.getD k 0 := ofFn_getD_eq k hlen
  rw [beyond, List.getD_eq_default _ _ hk]

theorem latchedAlarm_plen {dev : Byte} (h : (framePayload f prof).length ≤ 26) :
    (latchedAlarm f prof dev).plen.toNat = (framePayload f prof).length := by
  simp only [latchedAlarm, BitVec.toNat_ofNat]
  omega

theorem alarmGenuine_latchedAlarm (dev : Byte) (shape : frameShape P f prof)
    (hr : frameRtype P f prof = alarmRtype) : AlarmGenuine (latchedAlarm f prof dev) := by
  have hlen := alarm_payload_length shape hr
  have fits : (framePayload f prof).length ≤ 26 := hlen ▸ alarmPayloadLen_le prof
  refine ⟨fun invalid => Bool.noConfusion invalid, fun _ => ⟨?_, fun k hk => ?_⟩⟩
  · show BitVec.ofNat 8 (framePayload f prof).length = _
    rw [hlen]
    cases prof <;> rfl
  · rw [latchedAlarm_plen fits] at hk
    have beyond : (latchedAlarm f prof dev).p[k]?.getD 0 = (framePayload f prof).getD k 0 := ofFn_getD_eq k fits
    rw [beyond, List.getD_eq_default _ _ hk]

theorem alarmOfFrame_latched (dev : Byte) (shape : frameShape P f prof) (hr : frameRtype P f prof = alarmRtype) :
    AlarmOfFrame (latchedFrame P f prof dev) (latchedAlarm f prof dev) := by
  obtain ⟨_, hf⟩ := frameShape_length shape
  have fits : (framePayload f prof).length ≤ 26 := 
    alarm_payload_length shape hr ▸ alarmPayloadLen_le prof
  refine ⟨fun _ => rfl, fun _ _ => ⟨rfl, rfl, rfl, ?_⟩⟩
  rw [latchedAlarm_plen fits, latchFrame_latchedFrame hf]
  exact ofFn_getD_take fits

/-- After a record of another type the alarm latch stays what it was, and the frame latch makes no claim on it. -/
theorem alarmOfFrame_other {dev : Byte} (a : AlarmLatch) (hr : frameRtype P f prof ≠ alarmRtype) :
    AlarmOfFrame (latchedFrame P f prof dev) a :=
  ⟨fun _ => rfl, fun _ alarm => absurd alarm hr⟩

end

/-- Cleared latches claim nothing. -/
theorem latchInv_of_cleared (P : Params) {s : State} (hf : s.frm = .cleared) (ha : s.alm = .cleared) :
    LatchInv P s := by
  rw [LatchInv, hf, ha]
  exact ⟨⟨fun _ => rfl, fun valid => Bool.noConfusion valid⟩, ⟨fun _ => rfl, fun valid => Bool.noConfusion valid⟩,
    fun valid => Bool.noConfusion valid, fun valid => Bool.noConfusion valid⟩

theorem latchInv_of_same {P : Params} {s t : State} (h : LatchInv P s) (hf : t.frm = s.frm) (ha : t.alm = s.alm) :
    LatchInv P t := by
  rw [LatchInv, hf, ha]
  exact h

theorem exec_latchInv {i : Instr} {s t : State} (he : exec i s = .next t) (h : LatchInv Config.params s) :
    LatchInv Config.params t := by
  by_cases hi : i = .srst
  · subst hi
    rw [exec_next_iff.mp he]
    exact latchInv_of_cleared _ (State.closeOutput_frm _) (State.closeOutput_alm _)
  cases exec_judged he hi with
  | noVerdict frm alm | rejected _ frm alm => exact latchInv_of_same h frm alm
  | accepted f prof dev _ shape crc inRange index frm alm =>
    have bounds := devInRange_bounds inRange
    have genuine := frameGenuine_latchedFrame shape crc index (by omega)
    rw [LatchInv, frm, alm]
    split
    · rename_i hr
      exact ⟨genuine, alarmGenuine_latchedAlarm dev shape hr, alarmOfFrame_latched dev shape hr⟩
    · rename_i hr
      obtain ⟨_, alarm, _⟩ := h
      exact ⟨genuine, alarm, alarmOfFrame_other s.alm hr⟩

/-- Settles O46: a command keeps the latches or writes genuine ones, and every other step keeps them or clears both. -/
theorem everyStepKeepsTheLatchesGenuine : Obligations.EveryStepKeepsTheLatchesGenuine := fun _ _ =>
  step_keeps (fun _ _ _ _ h => latchInv_of_same h rfl rfl) (fun _ => latchInv_of_cleared _ rfl rfl)
    (fun _ _ _ => exec_latchInv) (fun _ _ h => latchInv_of_same h (by simp) (by simp))

end Sys2Proof.Machine
end

section
/-! SUPPORT. LAST_EVT after a command and after a step, and the values of the reset state (10_state.md R39, R42;
60_exceptions.md R259, R261). -/

namespace Sys2Proof.Machine

open Sys2Proof.Safety

/-- The highest code is BAD_REG's (R261). -/
theorem Event.code_le (e : Event) : e.code.toNat ≤ 0xA := by cases e <;> simp [Event.code]

/-- The code of the last event, and the given code when there is none (R39). -/
theorem exec_lastEvt {i : Instr} {s t : State} (he : exec i s = .next t) (hi : i ≠ .srst) :
    (∃ e, t.events.getLast? = some e ∧ t.lastEvt = e.code) ∨ (t.events.getLast? = none ∧ t.lastEvt = s.lastEvt) := by
  rw [exec_next_iff.mp he]
  have kept : (effect i s.openOutput).lastEvt = s.lastEvt := effect_lastEvt s.openOutput hi
  rcases State.closeOutput_cases (effect i s.openOutput) with ⟨silent, h⟩ | ⟨e, last, h⟩ <;> rw [h]
  · exact .inr ⟨by rw [silent]; rfl, kept⟩
  · exact .inl ⟨e, last, rfl⟩

/-- Settles O12: the frame of R259 writes the code of the last event, and no effect but SRST's writes LAST_EVT. -/
theorem lastEventIsTheLastEmitted : Obligations.LastEventIsTheLastEmitted := by
  intro i s t he hi
  rcases exec_lastEvt he hi with ⟨e, last, h⟩ | ⟨silent, h⟩
  · rw [h, last]
  · rw [h, silent]

theorem eventInv_of_same {s t : State} (h : EventInv s) (hl : t.lastEvt = s.lastEvt) (he : t.events = s.events) :
    EventInv t := by
  rw [EventInv, hl, he]
  exact h

theorem eventInv_of_last {s : State} {e : Event} (last : s.events.getLast? = some e) (h : s.lastEvt = e.code) :
    EventInv s := by
  refine ⟨h ▸ e.code_le, fun e' last' => ?_⟩
  rw [Option.some.inj (last'.symm.trans last), h]

theorem eventInv_of_silent {s : State} (silent : s.events.getLast? = none) (h : s.lastEvt.toNat ≤ 0xA) : EventInv s :=
  ⟨h, fun e last => by rw [silent] at last; cases last⟩

theorem exec_eventInv {i : Instr} {s t : State} (he : exec i s = .next t) (h : EventInv s) : EventInv t := by
  by_cases hi : i = .srst
  · subst hi
    rw [exec_next_iff.mp he]
    exact eventInv_of_silent rfl (Nat.zero_le 0xA)
  obtain ⟨bound, _⟩ := h
  rcases exec_lastEvt he hi with ⟨e, last, h⟩ | ⟨silent, h⟩
  · exact eventInv_of_last last h
  · exact eventInv_of_silent silent (h ▸ bound)

/-- Settles O47: a command ends with the code of its last event or an old one, an illegal word with ILLEGAL_CMD, and
every other step keeps the outputs or resets them. -/
theorem everyStepKeepsTheEventInvariant : Obligations.EveryStepKeepsTheEventInvariant := fun _ _ =>
  step_keeps (fun _ _ _ _ h => eventInv_of_same h rfl rfl) (fun _ => eventInv_of_silent rfl (Nat.zero_le 0xA))
    (fun _ _ _ => exec_eventInv)
    (fun w _ _ => eventInv_of_last (e := .illegalCmd w) (by simp) (by simp [Event.code]))

/-- Settles O35: the buffer is empty, both latches are clear, and there is no event. -/
theorem resetStateMeetsTheInvariants : Obligations.ResetStateMeetsTheInvariants :=
  ⟨syncInv_of_empty rfl, latchInv_of_cleared _ rfl rfl, eventInv_of_silent rfl (by decide)⟩

/-- Settles O8: the reset state is written as the table of R42. -/
theorem resetStateValues : Obligations.ResetStateValues := by
  refine ⟨rfl, rfl, rfl, rfl, fun k => ?_, rfl, rfl, rfl, rfl, rfl, fun k => ?_, rfl, rfl, rfl, rfl, rfl, rfl, rfl, rfl⟩
  · exact Vector.getElem_replicate k.isLt
  · exact Vector.getElem_replicate k.isLt

end Sys2Proof.Machine
end

section
/-! SUPPORT. The configuration registers, written by WRCFG alone and read back by RDREG, and the read of ALMSTAT
(10_state.md R24 to R26, R33, R43). -/

namespace Sys2Proof.Machine

/-- WRCFG of one address leaves the configuration registers of the others. -/
theorem writeConfig_other (a : BitVec 8) (v : Half) (s : State) :
    (a ≠ 0x00 → (writeConfig a v s).profile = s.profile) ∧
    (a ≠ 0x01 → (writeConfig a v s).deviceCount = s.deviceCount) ∧ (a ≠ 0x02 → (writeConfig a v s).cat = s.cat) := by
  rcases writeConfig_cases a v s with ⟨ha, h⟩ | ⟨ha, h⟩ | ⟨ha, h⟩ | ⟨_, h⟩ <;> rw [h]
  · rcases writeCtrl_cases v s with ⟨_, h⟩ | ⟨_, h⟩ <;> rw [h] <;> exact ⟨absurd ha, fun _ => rfl, fun _ => rfl⟩
  · exact ⟨fun _ => rfl, absurd ha, fun _ => rfl⟩
  · exact ⟨fun _ => rfl, fun _ => rfl, absurd ha⟩
  · exact ⟨fun _ => rfl, fun _ => rfl, fun _ => rfl⟩

/-- Settles O29: no other command writes the configuration, and WRCFG writes the register of its address alone. -/
theorem configurationHasOnlyItsWriter : Obligations.ConfigurationHasOnlyItsWriter := by
  intro i s t he
  rw [exec_next_iff.mp he, State.closeOutput_profile, State.closeOutput_deviceCount, State.closeOutput_cat]
  by_cases hi : ∃ a v, i = .wrcfg a v
  · obtain ⟨a, v, rfl⟩ := hi
    obtain ⟨hprofile, hcount, hcat⟩ := writeConfig_other a v s.openOutput
    have at_address {a₀ : BitVec 8} (h : ¬ a ≠ a₀) : ∃ v', Instr.wrcfg a v = .wrcfg a₀ v' :=
      ⟨v, by rw [not_ne_iff.mp h]⟩
    exact ⟨fun h => at_address (mt hprofile h), fun h => at_address (mt hcount h), fun h => at_address (mt hcat h)⟩
  · simp only [not_exists] at hi
    obtain ⟨hprofile, hcount, hcat⟩ := effect_configuration s.openOutput hi
    exact ⟨absurd hprofile, absurd hcount, absurd hcat⟩

/-- RDREG of a mapped register writes the read data alone (R253). -/
theorem exec_rdreg_of_mapped {a : BitVec 8} {r : Reg} (h : regAt a = some r) (s : State) :
    exec (.rdreg a) s = .next (s.openOutput.setRdata (regRead Config.params s r)) := by
  have read : effect (.rdreg a) s.openOutput = s.openOutput.setRdata (regRead Config.params s r) := by
    show readRegister Config.params a s.openOutput = _
    simp only [readRegister, h]
    rfl
  rw [exec_is_effect, read, State.closeOutput_of_silent rfl]

/-- A write of a RW register is read back as the register's value in the state written (R255). -/
theorem readback_of_write {a : BitVec 8} {r : Reg} {v x : Half} {s : State} (h : regAt a = some r)
    (hr : regRead Config.params (writeConfig a v s.openOutput).closeOutput r = x) :
    ∃ t u, exec (.wrcfg a v) s = .next t ∧ exec (.rdreg a) t = .next u ∧ u.rdata = x :=
  ⟨_, _, exec_is_effect _ s, exec_rdreg_of_mapped h _, hr⟩

theorem setWidth_setWidth_eq_and (v : Half) {n : Nat} (hn : n ≤ 16) :
    (v.setWidth n).setWidth 16 = v &&& BitVec.ofNat 16 (2 ^ n - 1) := by
  have bound : 2 ^ n - 1 < 2 ^ 16 := by
    have := Nat.pow_le_pow_right (show 0 < 2 by omega) hn
    have := Nat.two_pow_pos n
    omega
  apply BitVec.eq_of_toNat_eq
  rw [BitVec.toNat_and, BitVec.toNat_ofNat, Nat.mod_eq_of_lt bound, Nat.and_two_pow_sub_one_eq_mod,
    BitVec.toNat_setWidth, BitVec.toNat_setWidth]
  exact Nat.mod_eq_of_lt ((Nat.mod_le _ _).trans_lt v.isLt)

/-- Only bit 0 is kept in PROFILE (R24). -/
theorem profileBit_profileOfBit (v : Half) : profileBit (profileOfBit (v.getLsbD 0)) = v.setWidth 1 := by
  rw [BitVec.setWidth_one]
  cases v.getLsbD 0 <;> rfl

theorem writeConfig_ctrl_profile (v : Half) (s : State) :
    (writeConfig 0x00 v s).profile = profileOfBit (v.getLsbD 0) := rfl

/-- Settles O28: each register keeps the low bits of its width, and the others read as zero. -/
theorem reservedBitsReadZero : Obligations.ReservedBitsReadZero := by
  intro v s
  refine ⟨readback_of_write (r := .ctrl) rfl ?_, readback_of_write (r := .devcnt) rfl ?_,
    readback_of_write (r := .catsel) rfl ?_⟩
  · show (profileBit (State.closeOutput _).profile).setWidth 16 = _
    rw [State.closeOutput_profile, writeConfig_ctrl_profile, profileBit_profileOfBit]
    exact setWidth_setWidth_eq_and v (by decide)
  · exact setWidth_setWidth_eq_and v (by decide)
  · exact setWidth_setWidth_eq_and v (by decide)

/-- No bit of OUT at or above the ranks' number is set (R232, R236). -/
theorem alarmOut_bit_lt {P : Params} {s : State} {r : Nat} (h : (alarmOut P s).getLsbD r = true) : r < 208 := by
  unfold alarmOut at h
  split at h
  · rename_i c _
    by_contra hr
    have ranks := profileRanks_length_le P s.alm.prof c
    rw [categoryVector_bit, List.getElem?_eq_none (by omega)] at h
    simp at h
  · simp at h

theorem selCount_eq_countP (P : Params) (s : State) :
    selCount P s = (List.range 256).countP fun r => (alarmOut P s).getLsbD r := countOnes_eq_countP _ 256

/-- R33: the count fits the 8-bit field. -/
theorem selCount_le (P : Params) (s : State) : selCount P s ≤ 208 := by
  have below : (List.range 256).countP (fun r => (alarmOut P s).getLsbD r) ≤ (List.range 256).countP (· < 208) :=
    List.countP_mono_left fun r _ h => by simpa using alarmOut_bit_lt h
  rw [selCount_eq_countP]
  exact below.trans (by decide +kernel)

/-- Settles O51: ALMSTAT's high byte is the count, which its bound keeps whole, and its low byte is ALM_DEV. -/
theorem selectedCountFitsItsField : Obligations.SelectedCountFitsItsField := by
  intro s
  have bound := selCount_le Config.params s
  have word : regRead Config.params s .almstat = BitVec.ofNat 8 (selCount Config.params s) ++ s.alm.dev := rfl
  have count : ((regRead Config.params s .almstat).extractLsb' 8 8).toNat = selCount Config.params s := by
    rw [word, BitVec.extractLsb'_append_eq_left, BitVec.toNat_ofNat]
    omega
  refine ⟨_, exec_rdreg_of_mapped (r := .almstat) rfl s, ?_⟩
  rw [State.setRdata_rdata, count]
  exact ⟨selCount_eq_countP _ s, bound, BitVec.extractLsb'_append_eq_right⟩

end Sys2Proof.Machine
end

section
/-! SUPPORT. The decoder undoes the encoder, and the words and the bus value of the assembly lines (30_encoding.md R70
to R77; 20_memory.md R53). -/

namespace Sys2Proof

theorem dataField_of_value {w : CmdWord} {b : Byte} (h : w.toNat % 256 = b.toNat) : dataField w = b := by
  apply BitVec.eq_of_toNat_eq
  rw [dataField, field_toNat]
  omega

theorem addrField_of_value {w : CmdWord} {a : BitVec 8} (h : w.toNat / 65536 % 256 = a.toNat) : addrField w = a :=
  BitVec.eq_of_toNat_eq ((field_toNat w 16 8).trans h)

theorem immField_of_value {w : CmdWord} {v : Half} (h : w.toNat % 65536 = v.toNat) : immField w = v := by
  apply BitVec.eq_of_toNat_eq
  rw [immField, field_toNat]
  omega

/-- Decoding the word of a command gives the command back (R71 to R73). -/
theorem decode_encode (i : Instr) : decode (encode i) = .ok i := by
  have value := encode_value i
  rw [decode_by_value]
  cases i <;> dsimp only at value
  case nop => rw [if_pos value]
  case srst => rw [if_neg, if_pos] <;> omega
  case pushb b => rw [if_neg, if_neg, if_pos, dataField_of_value] <;> omega
  case pushblk => rw [if_neg, if_neg, if_neg, if_pos] <;> omega
  case wrcfg a v =>
    rw [if_neg, if_neg, if_neg, if_neg, if_pos, addrField_of_value, immField_of_value] <;> omega
  case rdreg a => rw [if_neg, if_neg, if_neg, if_neg, if_neg, if_pos, addrField_of_value] <;> omega
  case crcclr => rw [if_neg, if_neg, if_neg, if_neg, if_neg, if_neg, if_pos] <;> omega
  case crcb b =>
    rw [if_neg, if_neg, if_neg, if_neg, if_neg, if_neg, if_neg, if_pos, dataField_of_value] <;> omega

section
variable {b : Nat} (hb : b < 256)
include hb

theorem encode_pushb_value : (encode (.pushb (BitVec.ofNat 8 b))).toNat = 0x20000000 + b := by
  rw [encode_value]
  dsimp only
  rw [BitVec.toNat_ofNat, Nat.mod_eq_of_lt hb]

theorem encode_crcb_value : (encode (.crcb (BitVec.ofNat 8 b))).toNat = 0x70000000 + b := by
  rw [encode_value]
  dsimp only
  rw [BitVec.toNat_ofNat, Nat.mod_eq_of_lt hb]

end

theorem encode_wrcfg_value (a : BitVec 8) {imm : Nat} (h : imm < 65536) :
    (encode (.wrcfg a (BitVec.ofNat 16 imm))).toNat = 0x40000000 + 0x10000 * a.toNat + imm := by
  rw [encode_value]
  dsimp only
  rw [BitVec.toNat_ofNat, Nat.mod_eq_of_lt h, Nat.mul_comm]

theorem encode_rdreg_value (a : BitVec 8) : (encode (.rdreg a)).toNat = 0x50000000 + 0x10000 * a.toNat := by
  rw [encode_value]
  dsimp only
  rw [Nat.mul_comm]

end Sys2Proof

namespace Sys2Proof.Machine

/-- The numbers of a line's words. -/
def wordValues (line : AsmLine) : List Nat := (lineWords line).map (·.toNat)

/-- A line other than a raw word is its commands, encoded (R76, R77). -/
theorem lineWords_of_not_word {line : AsmLine} (h : ∀ v, line ≠ .word v) :
    lineWords line = (lineInstrs line).map encode := by
  cases line with
  | word v => exact absurd rfl (h v)
  | _ => rfl

theorem wordValues_wrcfg (r : RegOperand) {imm : Nat} (h : imm < 65536) :
    wordValues (.wrcfg r imm) = [0x40000000 + 0x10000 * (operandAddr r).toNat + imm] :=
  congrArg (fun x => [x]) (encode_wrcfg_value (operandAddr r) h)

theorem wordValues_rdreg (r : RegOperand) :
    wordValues (.rdreg r) = [0x50000000 + 0x10000 * (operandAddr r).toNat] :=
  congrArg (fun x => [x]) (encode_rdreg_value (operandAddr r))

theorem operandAddr_raw {a : Nat} (h : a < 256) : (operandAddr (.raw a)).toNat = a :=
  (BitVec.toNat_ofNat a 8).trans (Nat.mod_eq_of_lt h)

/-- The words of commands that carry one byte each, from the value of one such word. -/
theorem byte_command_values {op : Nat} {command : Byte → Instr} {bs : List Nat}
    (value : ∀ {b : Nat}, b < 256 → (encode (command (BitVec.ofNat 8 b))).toNat = op + b)
    (h : bs.all (· < 256) = true) :
    ((bs.map fun b => command (BitVec.ofNat 8 b)).map encode).map (·.toNat) = bs.map (op + ·) := by
  simp only [List.all_eq_true, decide_eq_true_eq] at h
  rw [List.map_map, List.map_map]
  exact List.map_congr_left fun b hb => value (h b hb)

/-- A PUSHBLK line puts its 32 bytes on the bus in stream order (R53). -/
theorem busBytes_pushblk {bs : List Nat} (h : (AsmLine.pushblk bs).wellFormed = true) :
    busBytes (lineBus (.pushblk bs)) = bs.map fun b => BitVec.ofNat 8 b := by
  simp only [AsmLine.wellFormed, isByte, Bool.and_eq_true, beq_iff_eq, List.all_eq_true, decide_eq_true_eq] at h
  obtain ⟨hlen, hbytes⟩ := h
  have fits : blockBus bs < 2 ^ 256 := by
    have := blockBus_lt hbytes
    rwa [hlen] at this
  apply List.ext_getElem
  · rw [busBytes_length, List.length_map, hlen]
  · intro k hk _
    have hk' : k < bs.length := by rwa [busBytes_length, ← hlen] at hk
    simp only [busBytes, busByte, List.getElem_map, List.getElem_range]
    apply BitVec.eq_of_toNat_eq
    have byte := blockBus_byte hbytes k
    rw [List.getD_eq_getElem _ _ hk'] at byte
    have small := hbytes bs[k] (List.getElem_mem hk')
    rw [BitVec.extractLsb'_toNat, BitVec.toNat_ofNat, lineBus, BitVec.toNat_ofNat, Nat.mod_eq_of_lt fits,
      Nat.shiftRight_eq_div_pow, Nat.mod_eq_of_lt small]
    exact byte

/-- Settles O6: each form's words are the values of its encoded commands, and the decoder undoes the encoder. -/
theorem assemblyLinesPresentTheirCommands : Obligations.AssemblyLinesPresentTheirCommands := by
  refine ⟨⟨rfl, rfl, rfl⟩, fun b hb => ⟨?pushb, ?crcb⟩, fun bs h => ⟨rfl, busBytes_pushblk h⟩,
    fun a imm ha himm => ⟨?wrcfgRaw, ?rdregRaw⟩, fun r imm himm => ⟨wordValues_wrcfg _ himm, wordValues_rdreg _⟩,
    ⟨rfl, rfl, rfl, rfl, rfl, rfl, rfl, rfl, rfl, rfl, by decide, by decide⟩,
    fun bs h => byte_command_values encode_pushb_value h,
    fun bs h => congrArg₂ List.cons (encode_value .crcclr) (byte_command_values encode_crcb_value h), ⟨rfl, rfl⟩,
    fun n hn => wordValues_wrcfg (.named .devcnt) (by omega), fun c hc => wordValues_wrcfg (.named .catsel) (by omega),
    fun v hv => ?word, fun line _ hline => ?decoded⟩
  case pushb => exact congrArg (fun x => [x]) (encode_pushb_value hb)
  case crcb => exact congrArg (fun x => [x]) (encode_crcb_value hb)
  case wrcfgRaw => exact (wordValues_wrcfg (.raw a) himm).trans (by rw [operandAddr_raw ha])
  case rdregRaw => exact (wordValues_rdreg (.raw a)).trans (by rw [operandAddr_raw ha])
  case word => exact congrArg (fun x => [x]) ((BitVec.toNat_ofNat v 32).trans (Nat.mod_eq_of_lt hv))
  case decoded =>
    rw [lineWords_of_not_word hline, List.map_map]
    exact List.map_congr_left fun i _ => decode_encode i

end Sys2Proof.Machine
end

section
/-! SUPPORT. Runs of PUSHB: bytes short of a frame are appended, the last byte of a valid frame has it accepted, and
the FRAME window reads it back (41_sync_rolling.md R130, R141; 43_validator.md R207; 10_state.md R35). -/

namespace Sys2Proof.Machine

open Sys2Proof.Safety

theorem runInstrs_cons {i : Instr} {s t : State} (h : exec i s = .next t) (rest : List Instr) :
    runInstrs (i :: rest) s = (runInstrs rest t).map fun (u, later) => (u, t.events ++ later) := by
  rw [runInstrs, h]

theorem runInstrs_singleton {i : Instr} {s t : State} (h : exec i s = .next t) :
    runInstrs [i] s = some (t, t.events) := by
  rw [runInstrs_cons h]
  simp [runInstrs]

/-- A run of commands, and then of more commands from where it ended. -/
theorem runInstrs_append {l m : List Instr} {s t : State} {before : List Event}
    (h : runInstrs l s = some (t, before)) :
    runInstrs (l ++ m) s = (runInstrs m t).map fun (u, later) => (u, before ++ later) := by
  induction l generalizing s before with
  | nil =>
    cases h
    simp
  | cons i l ih =>
    have hi := exec_is_effect i s
    rw [runInstrs_cons hi, Option.map_eq_some_iff] at h
    obtain ⟨⟨u, rest⟩, run, ends⟩ := h
    cases ends
    rw [List.cons_append, runInstrs_cons hi, ih run]
    simp [Function.comp_def]

/-- The bytes on which the retry loop waits: too few for a header, or a header with too few bytes (R134, R135). -/
def Waiting (l : List Byte) : Prop := l.length < 5 ∨ (5 ≤ l.length ∧ headerAt l ∧ l.length < headerLenA l)

theorem Waiting.length_lt {l : List Byte} (h : Waiting l) : l.length < 57 := by
  rcases h with short | ⟨_, hdr, hlt⟩
  · omega
  · have := headerLenA_bounds hdr
    omega

/-- On the first bytes of a frame, short of all of them, the loop waits. -/
theorem waiting_take {f : List Byte} {n : Nat} (hdr : headerAt f) (hn : n < headerLenA f) : Waiting (f.take n) := by
  by_cases short : (f.take n).length < 5
  · exact .inl short
  · have hlen : (f.take n).length ≤ n := List.length_take_le n f
    refine .inr ⟨by omega, (headerAt_take (by omega)).mpr hdr, ?_⟩
    rw [headerLenA_take (by omega)]
    omega

/-- Below the capacity PUSHB appends its byte and evicts none (R133). -/
theorem pushByte_of_room (P : Params) (b : Byte) {s : State} (hp : s.profile = .A) (room : s.buf.length < 100) :
    pushByte P b s = syncLoop P (s.buf ++ [b]) s := by
  have fits : ¬ Config.capA < (s.buf ++ [b]).length := by
    simp only [Config.capA, List.length_append, List.length_singleton]
    omega
  simp only [pushByte, hp, fits, if_false]

theorem exec_pushb_of_waiting {b : Byte} {s : State} (hp : s.profile = .A) (h : Waiting (s.buf ++ [b])) :
    exec (.pushb b) s = .next (s.openOutput.setBuf (s.buf ++ [b])) := by
  have room := h.length_lt
  rw [List.length_append, List.length_singleton] at room
  have waits : syncLoop Config.params (s.buf ++ [b]) s.openOutput = s.openOutput.setBuf (s.buf ++ [b]) := by
    rcases h with short | ⟨h5, hdr, hlt⟩
    · exact syncLoop_of_short _ _ short
    · exact syncLoop_of_waiting _ _ h5 hdr hlt
  have appended : effect (.pushb b) s.openOutput = s.openOutput.setBuf (s.buf ++ [b]) :=
    (pushByte_of_room _ b (s := s.openOutput) hp (by simp only [State.openOutput_buf]; omega)).trans waits
  rw [exec_is_effect, appended, State.closeOutput_of_silent rfl]

/-- Bytes on which the loop waits, one after another, are appended without an event. -/
theorem runInstrs_pushb_of_waiting {l : List Byte} {s : State} (hp : s.profile = .A)
    (h : ∀ n, n < l.length → Waiting (s.buf ++ l.take (n + 1))) :
    runInstrs (l.map .pushb) s = some (if l = [] then s else s.openOutput.setBuf (s.buf ++ l), []) := by
  induction l generalizing s with
  | nil => rfl
  | cons b l ih =>
    have begun := exec_pushb_of_waiting hp (by simpa using h 0 (by simp))
    have rest := ih (s := s.openOutput.setBuf (s.buf ++ [b])) hp fun n hn => by
      simpa using h (n + 1) (by simpa using hn)
    rw [List.map_cons, runInstrs_cons begun, rest]
    by_cases hl : l = []
    · simp [hl]
    · simp [hl, State.openOutput, State.setBuf, State.setRdata, State.setEvents]

/-- The last byte of a frame empties the buffer and hands the whole frame to the validator (R130). -/
theorem exec_pushb_of_last {f : List Byte} {b : Byte} {s : State} (hp : s.profile = .A) (hf : s.buf ++ [b] = f)
    (hdr : headerAt f) (hlen : f.length = headerLenA f) :
    exec (.pushb b) s = .next (validate Config.params f .A (s.openOutput.setBuf [])).closeOutput := by
  have bounds := headerLenA_bounds hdr
  have room : s.openOutput.buf.length < 100 := by
    have := congrArg List.length hf
    rw [List.length_append, List.length_singleton] at this
    rw [State.openOutput_buf]
    omega
  have complete := syncLoop_of_complete Config.params s.openOutput (by omega) hdr hlen.ge
  rw [← headerLenA, ← hlen, List.take_length] at complete
  have judged : effect (.pushb b) s.openOutput = validate Config.params f .A (s.openOutput.setBuf []) := by
    rw [← complete, ← hf]
    exact pushByte_of_room _ b (s := s.openOutput) hp room
  rw [exec_is_effect, judged]

theorem devInRange_iff {dev : Int} {s : State} :
    devInRange dev s = true ↔ 0 ≤ dev ∧ dev < s.deviceCount.toNat := by
  simp [devInRange]

theorem validate_of_valid {P : Params} {f : List Byte} {prof : Profile} {s : State}
    (crc : frameCrc P f prof = frameTrailer f) (range : devInRange (deviceIndex P f prof) s = true) :
    validate P f prof s = accept P f prof (BitVec.ofInt 8 (deviceIndex P f prof))
      (s.setCrcCheck (frameCrc P f prof) (frameTrailer f)) := by
  rcases validate_cases P f prof s with ⟨bad, _⟩ | ⟨_, bad, _⟩ | ⟨_, _, h⟩
  · exact absurd crc bad
  · exact Bool.noConfusion (bad.symm.trans range)
  · exact h

/-- An accepted frame is read back byte by byte, and as zero beyond its end (R35). -/
theorem latchByte_of_latched {P : Params} {f : List Byte} {prof : Profile} {dev : Byte} {t : State}
    (hlen : f.length ≤ 57) (h : t.frm = latchedFrame P f prof dev) (x : Nat) : latchByte t x = f.getD x 0 := by
  have byte : (latchedFrame P f prof dev).bytes[x]?.getD 0 = f.getD x 0 := ofFn_getD_eq x hlen
  rw [latchByte, h, latchedFrame_len hlen, byte]
  split
  · rfl
  · rw [List.getD_eq_default _ _ (by omega)]

theorem exec_rdreg_frame (t : State) {k : Nat} (hk : k < 29) :
    ∃ u, exec (.rdreg (BitVec.ofNat 8 (0x40 + k))) t = .next u ∧
      u.rdata = latchByte t (2 * k + 1) ++ latchByte t (2 * k) :=
  ⟨_, exec_rdreg_of_mapped (regAt_regAddr (.frame ⟨k, hk⟩)) t, rfl⟩

/-- The address byte of a header is 1 to 16 (R132). -/
theorem header_address_pos {f : List Byte} (h : headerAt f) : 1 ≤ (frameAt f 0).toNat := by
  simp only [headerAt, hdrOkA, Bool.or_eq_true, Bool.and_eq_true, decide_eq_true_eq] at h
  rcases h with ⟨⟨⟨h, _⟩, _⟩, _⟩ | ⟨⟨⟨h, _⟩, _⟩, _⟩ <;> exact h

theorem ofInt_pred (b : Byte) : BitVec.ofInt 8 ((b.toNat : Int) - 1) = b - 1 := by
  apply BitVec.eq_of_toNat_eq
  have := b.isLt
  rw [BitVec.toNat_ofInt, BitVec.toNat_sub]
  simp
  omega

/-- The last byte of a valid frame has it accepted as device address - 1, with one event (R200, R207). -/
theorem exec_pushb_of_valid {f : List Byte} {b : Byte} {s : State} (hp : s.profile = .A) (hf : s.buf ++ [b] = f)
    (hdr : headerAt f) (hlen : f.length = headerLenA f)
    (crc : frameCrc Config.params f .A = frameTrailer f) (hdev : (frameAt f 0).toNat ≤ s.deviceCount.toNat) :
    ∃ t, exec (.pushb b) s = .next t ∧ t.buf = [] ∧
      t.frm = latchedFrame Config.params f .A (frameAt f 0 - 1) ∧
      t.events = [.frameOk (frameAt f 0 - 1) (frameAt f 2) f] := by
  have address := header_address_pos hdr
  have index : deviceIndex Config.params f .A = ((frameAt f 0).toNat : Int) - 1 := rfl
  have range : devInRange (deviceIndex Config.params f .A) (s.openOutput.setBuf []) = true := by
    rw [devInRange_iff, State.setBuf_deviceCount, State.openOutput_deviceCount, index]
    omega
  refine ⟨_, exec_pushb_of_last hp hf hdr hlen, ?_⟩
  rw [validate_of_valid crc range, index, ofInt_pred, accept_eq]
  have rtype : frameRtype Config.params f .A = frameAt f 2 := rfl
  exact ⟨by simp, by simp, by simp [rtype]⟩

/-- All bytes of a frame but its last, pushed into an empty buffer, are in the buffer (R130, R141). -/
theorem runInstrs_pushb_body {f body : List Byte} {last : Byte} {s : State} (hp : s.profile = .A) (hbuf : s.buf = [])
    (hf : body ++ [last] = f) (hdr : headerAt f) (hlen : f.length = headerLenA f) :
    runInstrs (body.map .pushb) s = some (s.openOutput.setBuf body, []) := by
  have bounds := headerLenA_bounds hdr
  have length : body.length + 1 = f.length := by rw [← hf, List.length_append, List.length_singleton]
  have body_ne : body ≠ [] := by
    rintro rfl
    rw [List.length_nil] at length
    omega
  have waits (n : Nat) (hn : n < body.length) : Waiting (s.buf ++ body.take (n + 1)) := by
    have begun_waits := waiting_take (n := n + 1) hdr (by omega)
    rwa [← hf, List.take_append_of_le_length (by omega), ← List.nil_append (body.take (n + 1)), ← hbuf] at begun_waits
  rw [runInstrs_pushb_of_waiting hp waits, if_neg body_ne, hbuf, List.nil_append]

/-- Settles O39: all bytes but the last are appended, and the last has the frame accepted. -/
theorem validFrameRoundTrip : Obligations.ValidFrameRoundTrip := by
  intro f s hp hbuf hdr hlen crc hdev
  have bounds := headerLenA_bounds hdr
  have nonempty : f ≠ [] := List.ne_nil_of_length_pos (by omega)
  have parts : f.dropLast ++ [f.getLast nonempty] = f := List.dropLast_append_getLast nonempty
  obtain ⟨t, last_step, empty, latch, events⟩ :=
    exec_pushb_of_valid (s := s.openOutput.setBuf f.dropLast) hp parts hdr hlen crc hdev
  have run : runInstrs (f.map .pushb) s = some (t, t.events) := by
    conv_lhs => rw [← parts, List.map_append]
    rw [runInstrs_append (runInstrs_pushb_body hp hbuf parts hdr hlen), List.map_singleton,
      runInstrs_singleton last_step]
    rfl
  refine ⟨t, events ▸ run, empty, congrArg FrameLatch.valid latch, ?_, congrArg FrameLatch.dev latch, fun k hk => ?_⟩
  · rw [latch, latchedFrame_len (by omega)]
  · obtain ⟨u, read, value⟩ := exec_rdreg_frame t hk
    rw [latchByte_of_latched (by omega) latch, latchByte_of_latched (by omega) latch] at value
    exact ⟨u, read, value⟩

end Sys2Proof.Machine
end

section
/-! SUPPORT. The bytes of a block and the fields of a frame (20_memory.md R52, R53; 42_sync_block.md R162, R167;
43_validator.md R201, R203, R206; 44_alarm_decoder.md R234). -/

namespace Sys2Proof.Machine

/-- The bytes of a block stand in stream order (R53). -/
theorem busBytes_getElem? (blk : Bus) {k : Nat} (hk : k < 32) : (busBytes blk)[k]? = some (busByte blk k) := by
  simp [busBytes, Config.blkB, hk]

/-- The marker test compares the enabled bytes and no other (R162). -/
theorem markerOkB_iff (P : Params) (f : List Byte) :
    markerOkB P f = true ↔ ∀ k : Fin 4, P.markerMaskB.getLsbD k.val = false ∨ frameAt f k.val = P.markerB[k] := by
  have marker (k : Nat) (hk : k < 4) : P.markerB[k]?.getD 0 = P.markerB[k] := by
    rw [Vector.getElem?_eq_getElem hk, Option.getD_some]
  simp only [markerOkB, List.all_eq_true, List.mem_range, Bool.or_eq_true, Bool.not_eq_true', beq_iff_eq,
    Fin.forall_iff, Fin.getElem_fin]
  exact forall₂_congr fun k hk => by rw [marker k hk]

/-- Settles O40: the block bytes and the marker test by their lemmas, the record type of variant B by the values of
RTYPE_POS_B, and the other fields by their definitions. -/
theorem frameFieldsAreTheSpecs : Obligations.FrameFieldsAreTheSpecs := by
  intro P blk f
  refine ⟨busBytes_length blk, fun _ => busBytes_getElem? blk, markerOkB_iff P f, rfl, rfl, rfl, rfl, ?rtypeB, rfl, rfl,
    rfl, rfl⟩
  case rtypeB =>
    rw [frameRtype, rtypePos]
    cases P.rtypePosB <;> rfl

end Sys2Proof.Machine
end

section
/-! SUPPORT. The decoder and the encoder are inverse on legal words, and the words that are illegal by their fields
(30_encoding.md R70 to R74). -/

namespace Sys2Proof

/-- Settles O1: the decoder finds the row of the encoded word and reads each operand back from its field. -/
theorem decodeOfEncodeIsTheCommand : Obligations.DecodeOfEncodeIsTheCommand :=
  fun i _ => decode_encode i

section
variable (w : CmdWord)

theorem dataField_toNat : (dataField w).toNat = w.toNat % 256 :=
  (field_toNat w 0 8).trans (congrArg (· % 256) (Nat.div_one _))

theorem addrField_toNat : (addrField w).toNat = w.toNat / 65536 % 256 := field_toNat w 16 8

theorem immField_toNat : (immField w).toNat = w.toNat % 65536 :=
  (field_toNat w 0 16).trans (congrArg (· % 65536) (Nat.div_one _))

end

/-- A row's mask and its operand fields together are the whole word, so encoding rebuilds it (R71). -/
theorem encode_of_decode {w : CmdWord} {i : Instr} (h : decode w = .ok i) : encode i = w := by
  have data := dataField_toNat w
  have addr := addrField_toNat w
  have imm := immField_toNat w
  rw [decode_by_value] at h
  rw [← BitVec.toNat_inj, encode_value]
  split_ifs at h <;> cases h
  all_goals
    dsimp only
    omega

/-- Settles O2. -/
theorem encodeOfDecodeIsTheWord : Obligations.EncodeOfDecodeIsTheWord :=
  fun _ _ => encode_of_decode

theorem decode_eq_ok_iff {w : CmdWord} {i : Instr} : decode w = .ok i ↔ w.toNat = (encode i).toNat := by
  rw [BitVec.toNat_inj]
  exact ⟨fun h => (encode_of_decode h).symm, fun h => h ▸ decode_encode i⟩

section
variable (w : CmdWord)

/-- The rows without operands: the mask is the whole word. -/
theorem decode_whole_iff {i : Instr} {p : CmdWord} (value : encode i = p) :
    decode w = .ok i ↔ w &&& 0xFFFFFFFF = p := by
  rw [decode_eq_ok_iff, mask_whole, value]

/-- The rows with DATA8 alone. -/
theorem decode_byte_iff {command : Byte → Instr} {p : CmdWord} (low : p.toNat % 256 = 0)
    (value : ∀ b, (encode (command b)).toNat = p.toNat + b.toNat) (b : Byte) :
    decode w = .ok (command b) ↔ w &&& 0xFFFFFF00 = p ∧ b = w.extractLsb' 0 8 := by
  have data : (w.extractLsb' 0 8).toNat = w.toNat % 256 := dataField_toNat w
  rw [decode_eq_ok_iff, mask_above_byte, value, ← BitVec.toNat_inj (x := b), data]
  omega

theorem decode_wrcfg_iff (a : BitVec 8) (v : Half) : decode w = .ok (.wrcfg a v) ↔
    w &&& 0xFF000000 = 0x40000000 ∧ a = w.extractLsb' 16 8 ∧ v = w.extractLsb' 0 16 := by
  have addr : (w.extractLsb' 16 8).toNat = w.toNat / 65536 % 256 := addrField_toNat w
  have imm : (w.extractLsb' 0 16).toNat = w.toNat % 65536 := immField_toNat w
  have pattern : (0x40000000 : CmdWord).toNat = 0x40000000 := rfl
  rw [decode_eq_ok_iff, mask_top_byte, encode_value, ← BitVec.toNat_inj (x := a), ← BitVec.toNat_inj (x := v), addr,
    imm, pattern]
  dsimp only
  omega

theorem decode_rdreg_iff (a : BitVec 8) : decode w = .ok (.rdreg a) ↔
    w &&& 0xFF00FFFF = 0x50000000 ∧ a = w.extractLsb' 16 8 := by
  have addr : (w.extractLsb' 16 8).toNat = w.toNat / 65536 % 256 := addrField_toNat w
  have pattern : (0x50000000 : CmdWord).toNat = 0x50000000 := rfl
  rw [decode_eq_ok_iff, mask_around_addr, encode_value, ← BitVec.toNat_inj (x := a), addr, pattern]
  dsimp only
  omega

theorem decode_is_error_iff : (∃ e, decode w = .error e) ↔
    w &&& 0xFFFFFFFF ≠ 0x00000000 ∧ w &&& 0xFFFFFFFF ≠ 0x10000000 ∧ w &&& 0xFFFFFF00 ≠ 0x20000000 ∧
    w &&& 0xFFFFFFFF ≠ 0x30000000 ∧ w &&& 0xFF000000 ≠ 0x40000000 ∧ w &&& 0xFF00FFFF ≠ 0x50000000 ∧
    w &&& 0xFFFFFFFF ≠ 0x60000000 ∧ w &&& 0xFFFFFF00 ≠ 0x70000000 := by
  simp only [decode_is_error_by_value, ne_eq, mask_whole, mask_above_byte, mask_top_byte, mask_around_addr]
  rfl

end

/-- Settles O3: a word decodes to a command exactly when it is that command's word, and each row's mask says so. -/
theorem decodeFollowsTheOpcodeMap : Obligations.DecodeFollowsTheOpcodeMap := fun w =>
  ⟨decode_whole_iff w rfl, decode_whole_iff w rfl, decode_byte_iff w rfl fun b => encode_value (.pushb b),
    decode_whole_iff w rfl, decode_wrcfg_iff w, decode_rdreg_iff w, decode_whole_iff w rfl,
    decode_byte_iff w rfl fun b => encode_value (.crcb b), decode_is_error_iff w⟩

theorem field_ne_zero_iff (w : CmdWord) (lo len : Nat) :
    w.extractLsb' lo len ≠ 0 ↔ w.toNat / 2 ^ lo % 2 ^ len ≠ 0 := by
  rw [Ne, ← BitVec.toNat_inj, field_toNat]
  rfl

/-- R74: the illegal words by OP, RSV and the must-be-zero bits of each format: the fields are parts of the word's
value, and no row's value has such parts. -/
theorem decode_is_error_iff_fields (w : CmdWord) : (∃ e, decode w = .error e) ↔
    8 ≤ (w.extractLsb' 28 4).toNat ∨ w.extractLsb' 24 4 ≠ 0 ∨
    ((w.extractLsb' 28 4).toNat ∈ [0, 1, 3, 6] ∧ w.extractLsb' 0 24 ≠ 0) ∨
    ((w.extractLsb' 28 4).toNat ∈ [2, 7] ∧ w.extractLsb' 8 16 ≠ 0) ∨
    ((w.extractLsb' 28 4).toNat = 5 ∧ w.extractLsb' 0 16 ≠ 0) := by
  have width : w.toNat < 2 ^ 32 := w.isLt
  simp only [decode_is_error_by_value, field_ne_zero_iff, field_toNat, List.mem_cons, List.not_mem_nil, or_false]
  omega

/-- Settles O5: each written word is the encoding of its command. -/
theorem writtenWordsDecode : Obligations.WrittenWordsDecode :=
  ⟨decode_encode .nop, decode_encode .srst, decode_encode (.pushb 0xFF), decode_encode .pushblk,
    decode_encode (.wrcfg 0x01 0xFFFF), decode_encode (.rdreg 0x08), decode_encode .crcclr,
    decode_encode (.crcb 0x37)⟩

end Sys2Proof

namespace Sys2Proof.Machine

/-- R74: an illegal word emits ILLEGAL_CMD(w), and nothing else of the state changes but LAST_EVT. -/
theorem execIllegal_eq (w : CmdWord) (s : State) : execIllegal w s =
    .next { s with rdata := 0, events := [.illegalCmd w], lastEvt := 0x8 } :=
  congrArg Host.Outcome.next (State.closeOutput_emit s.openOutput (.illegalCmd w))

/-- Settles O4: the illegal words by their fields, and the step on one of them. -/
theorem illegalWordsEmitIllegalCmd : Obligations.IllegalWordsEmitIllegalCmd := by
  refine fun w => ⟨decode_is_error_iff_fields w, fun e s blk rest hd hr hin => ?_⟩
  rw [step_of_illegal hin hr hd, execIllegal_eq]
  rfl

/-- A resolvable length is the length code in byte 2 plus 5 (R79). -/
theorem lenA_eq_code {b1 b2 : Byte} (h : lenA b1 b2 ≠ 0) : lenA b1 b2 = b2.toNat + 5 := by
  unfold lenA at h ⊢
  split_ifs at h ⊢ with h24 h34 h12
  · rw [h24]; rfl
  · rw [h34]; rfl
  · rw [h12.2]; rfl
  · exact absurd rfl h

/-- Settles O32: an accepted header's length is one of the three, and so is resolvable. -/
theorem acceptedHeadersHaveLengths : Obligations.AcceptedHeadersHaveLengths := by
  intro b0 b1 b2 h
  have len := lenA_of_header h
  exact ⟨lenA_eq_code (by omega), by omega⟩

end Sys2Proof.Machine
end

section
/-! SUPPORT. What a command does does not depend on the block bus, PUSHBLK apart (30_encoding.md R70). -/

namespace Sys2Proof.Machine

/-- The function neither reads nor writes the block bus: it commutes with a write of it. -/
def IgnoresBus (f : State → State) : Prop := ∀ (s : State) (b : Bus), f (s.setBus b) = (f s).setBus b

theorem closeOutput_ignoresBus : IgnoresBus State.closeOutput := by
  intro s b
  unfold State.closeOutput
  rw [State.setBus_events]
  cases s.events.getLast? <;> rfl

theorem accept_ignoresBus (P : Params) (f : List Byte) (prof : Profile) (dev : Byte) :
    IgnoresBus (accept P f prof dev) := by
  intro s b
  rw [accept_eq, accept_eq]
  rfl

/-- The CRC check speaks of the frame alone, and the range check of DEVICE_COUNT, so the verdict is the same. -/
theorem validate_ignoresBus (P : Params) (f : List Byte) (prof : Profile) : IgnoresBus (validate P f prof) := by
  intro s b
  have range : devInRange (deviceIndex P f prof) ((s.setBus b).setCrcCheck (frameCrc P f prof) (frameTrailer f)) =
    devInRange (deviceIndex P f prof) (s.setCrcCheck (frameCrc P f prof) (frameTrailer f)) := rfl
  unfold validate
  dsimp only
  rw [range]
  split
  · rfl
  · split
    · exact accept_ignoresBus P f prof _ (s.setCrcCheck (frameCrc P f prof) (frameTrailer f)) b
    · rfl

theorem syncLoop_ignoresBus (P : Params) (buf : List Byte) : IgnoresBus (syncLoop P buf) := by
  intro s b
  induction buf generalizing s with
  | nil => rfl
  | cons b0 rest ih =>
    by_cases short : (b0 :: rest).length < 5
    · rw [syncLoop_of_short P _ short, syncLoop_of_short P s short]
      rfl
    have enough : 5 ≤ (b0 :: rest).length := Nat.le_of_not_lt short
    cases header : hdrOkA (frameAt (b0 :: rest) 0) (frameAt (b0 :: rest) 1) (frameAt (b0 :: rest) 2) with
    | false =>
      rw [syncLoop_of_bad_header P _ enough header, syncLoop_of_bad_header P s enough header]
      exact ih (s.emit .hdrDrop)
    | true =>
      by_cases waits : (b0 :: rest).length < lenA (frameAt (b0 :: rest) 1) (frameAt (b0 :: rest) 2)
      · rw [syncLoop_of_waiting P _ enough header waits, syncLoop_of_waiting P s enough header waits]
        rfl
      · have complete := Nat.le_of_not_lt waits
        rw [syncLoop_of_complete P _ enough header complete, syncLoop_of_complete P s enough header complete]
        exact validate_ignoresBus P _ .A (s.setBuf []) b

theorem pushByte_ignoresBus (P : Params) (data : Byte) : IgnoresBus (pushByte P data) := by
  intro s b
  unfold pushByte
  rw [State.setBus_profile, State.setBus_buf]
  cases s.profile with
  | B => rfl
  | A =>
    dsimp only
    split
    · exact syncLoop_ignoresBus P _ (s.emit .evict) b
    · exact syncLoop_ignoresBus P _ s b

theorem writeCtrl_ignoresBus (v : Half) : IgnoresBus (writeCtrl v) := by
  intro s b
  unfold writeCtrl
  rw [State.setBus_profile]
  dsimp only
  split <;> rfl

theorem regWrite_setBus (r : Reg) (v : Half) (s : State) (b : Bus) :
    regWrite r v (s.setBus b) = (regWrite r v s).map (·.setBus b) := by
  cases r with
  | ctrl => exact congrArg some (writeCtrl_ignoresBus v s b)
  | _ => rfl

theorem writeConfig_ignoresBus (a : BitVec 8) (v : Half) : IgnoresBus (writeConfig a v) := by
  intro s b
  unfold writeConfig
  simp only [regWrite_setBus]
  cases regAt a with
  | none => rfl
  | some r =>
    rw [Option.bind_some, Option.bind_some]
    cases regWrite r v s <;> rfl

theorem regRead_setBus (P : Params) (s : State) (r : Reg) (b : Bus) : regRead P (s.setBus b) r = regRead P s r := by
  cases r <;> rfl

theorem readRegister_ignoresBus (P : Params) (a : BitVec 8) : IgnoresBus (readRegister P a) := by
  intro s b
  unfold readRegister
  cases regAt a with
  | none => rfl
  | some r => exact congrArg (s.setBus b).setRdata (regRead_setBus P s r b)

theorem effect_ignoresBus {i : Instr} (hi : i ≠ .pushblk) : IgnoresBus (effect i) := by
  cases i with
  | pushblk => exact absurd rfl hi
  | pushb data => exact pushByte_ignoresBus _ data
  | wrcfg a v => exact writeConfig_ignoresBus a v
  | rdreg a => exact readRegister_ignoresBus _ a
  | nop | srst | crcclr | crcb => exact fun _ _ => rfl

/-- Settles O14: every effect but PUSHBLK's ignores the bus, and so does the frame of R259 around it. -/
theorem blockBusMattersOnlyToPushblk : Obligations.BlockBusMattersOnlyToPushblk := by
  intro i s t b hi he
  rw [exec_next_iff.mp he, exec_is_effect]
  have opened : effect i (s.openOutput.setBus b) = (effect i s.openOutput).setBus b := effect_ignoresBus hi _ b
  exact congrArg Host.Outcome.next ((congrArg State.closeOutput opened).trans (closeOutput_ignoresBus _ b))

end Sys2Proof.Machine
end

section
/-! SUPPORT. Runs of the CRC commands (30_encoding.md R77; 40_crc_engine.md R100, R105, R106). -/

namespace Sys2Proof.Machine

theorem exec_crcclr (s : State) : exec .crcclr s = .next (s.openOutput.setCrcAcc Config.crcSeed) :=
  (exec_is_effect .crcclr s).trans (congrArg Host.Outcome.next (State.closeOutput_of_silent rfl))

theorem exec_crcb (b : Byte) (s : State) : exec (.crcb b) s =
    .next (s.openOutput.setCrcAcc (crcUpdate (crcTable Config.params s.profile) s.crcAcc b)) :=
  (exec_is_effect (.crcb b) s).trans (congrArg Host.Outcome.next (State.closeOutput_of_silent rfl))

/-- CRCB of each byte folds the update over the bytes (R100), with the outputs idle before and after. -/
theorem runInstrs_crcb (l : List Byte) (s : State) : runInstrs (l.map .crcb) s.openOutput =
    some (s.openOutput.setCrcAcc (l.foldl (crcUpdate (crcTable Config.params s.profile)) s.crcAcc), []) := by
  induction l generalizing s with
  | nil => rfl
  | cons b l ih =>
    have rest := ih (s.setCrcAcc (crcUpdate (crcTable Config.params s.profile) s.crcAcc b))
    rw [List.map_cons, runInstrs_cons (exec_crcb b s.openOutput)]
    exact congrArg (Option.map _) rest

/-- Settles O23: CRCCLR seeds the accumulator, and the run of CRCB folds the bytes into it. -/
theorem crcCommandsComputeTheCrc : Obligations.CrcCommandsComputeTheCrc := by
  intro l s
  rw [runInstrs_cons (exec_crcclr s)]
  exact congrArg (Option.map _) (runInstrs_crcb l (s.setCrcAcc Config.crcSeed))

end Sys2Proof.Machine
end

section
/-! SUPPORT. One update with CRC_TABLE_A is eight bit steps, so the residue is zero just for the trailer, and the words
of CRCCLR and CRCB (40_crc_engine.md R100 to R107). -/

namespace Sys2Proof.Machine

theorem setWidth_byte_eq_append (b : Byte) : b.setWidth 16 = (0 : Byte) ++ b :=
  BitVec.setWidth_eq_append (by decide)

theorem append_eq_xor_setWidth (hi lo : Byte) : hi ++ lo = (hi ++ (0 : Byte)) ^^^ lo.setWidth 16 := by
  rw [setWidth_byte_eq_append, BitVec.xor_append, BitVec.ofNat_eq_ofNat, BitVec.xor_zero, BitVec.zero_xor]

theorem ushiftRight_byte_eq_setWidth (x : Half) : x >>> 8 = (x.extractLsb' 8 8).setWidth 16 :=
  (BitVec.ushiftRight_eq_extractLsb'_of_lt (by decide)).trans (setWidth_byte_eq_append _).symm

theorem setWidth_byte_ushiftRight (b : Byte) : b.setWidth 16 >>> 8 = 0 := by
  rw [ushiftRight_byte_eq_setWidth, setWidth_byte_eq_append b, BitVec.extractLsb'_append_eq_left]
  rfl

/-- Eight bit steps shift the high byte down and bring in the table's entry for the low byte, by linearity. -/
theorem crcEightBitSteps_eq_table (x : Half) :
    crcEightBitSteps x = (x >>> 8) ^^^ crcTableA (x.extractLsb' 0 8) := by
  have halves : (x.extractLsb' 8 8 ++ (0 : Byte)) ^^^ (x.extractLsb' 0 8).setWidth 16 = x :=
    (append_eq_xor_setWidth _ _).symm.trans (BitVec.extractLsb'_append_extractLsb' (w := 8) (len := 8))
  calc crcEightBitSteps x
      = crcEightBitSteps (x.extractLsb' 8 8 ++ (0 : Byte)) ^^^ crcTableA (x.extractLsb' 0 8) := by
        rw [crcTableA, ← crcEightBitSteps_xor, halves]
    _ = (x >>> 8) ^^^ crcTableA (x.extractLsb' 0 8) := by
        rw [crcEightBitSteps_high, ushiftRight_byte_eq_setWidth]

/-- R102: the byte folded in does not reach the half that is shifted down. -/
theorem crcUpdate_crcTableA (acc : Half) (b : Byte) :
    crcUpdate crcTableA acc b = crcEightBitSteps (acc ^^^ b.setWidth 16) := by
  rw [crcEightBitSteps_eq_table, BitVec.ushiftRight_xor_distrib, setWidth_byte_ushiftRight, BitVec.ofNat_eq_ofNat,
    BitVec.xor_zero, crcUpdate]

/-- Settles O19: the update by the bit steps, and the check value computed. -/
theorem tableUpdateIsEightBitSteps : Obligations.TableUpdateIsEightBitSteps :=
  ⟨crcUpdate_crcTableA, by decide +kernel⟩

theorem crcEightBitSteps_eq_zero_iff {a : Half} : crcEightBitSteps a = 0 ↔ a = 0 :=
  ⟨crcBitSteps_eq_zero, fun h => congrArg crcEightBitSteps h⟩

theorem crcEightBitSteps_eq_setWidth_iff {a : Half} {b : Byte} :
    crcEightBitSteps a = b.setWidth 16 ↔ a = b ++ (0 : Byte) := by
  rw [← crcEightBitSteps_high]
  exact ⟨crcEightBitSteps_injective, congrArg _⟩

/-- Settles O20: the bit steps are injective, so the update by the high byte is undone, then the low one's. -/
theorem residueIsZeroExactlyForTheTrailer : Obligations.ResidueIsZeroExactlyForTheTrailer := by
  intro l lo hi
  calc crc crcTableA (l ++ [lo, hi]) = 0
      ↔ crcEightBitSteps (crcEightBitSteps (crc crcTableA l ^^^ lo.setWidth 16) ^^^ hi.setWidth 16) = 0 := by
        rw [crc_append, List.foldl_cons, List.foldl_cons, List.foldl_nil, crcUpdate_crcTableA, crcUpdate_crcTableA]
    _ ↔ crcEightBitSteps (crc crcTableA l ^^^ lo.setWidth 16) = hi.setWidth 16 :=
        crcEightBitSteps_eq_zero_iff.trans BitVec.xor_eq_zero_iff
    _ ↔ crc crcTableA l ^^^ lo.setWidth 16 = hi ++ (0 : Byte) := crcEightBitSteps_eq_setWidth_iff
    _ ↔ crc crcTableA l = hi ++ lo := by
        rw [append_eq_xor_setWidth hi lo, xor_eq_iff_left_eq]

/-- The mask of R100 takes the low byte. -/
theorem setWidth_and_low_byte (x : Half) : (x &&& 0x00FF).setWidth 8 = x.extractLsb' 0 8 := by
  rw [BitVec.setWidth_and, ← BitVec.setWidth_eq_extractLsb' (by decide)]
  exact BitVec.and_allOnes

/-- Settles O17: the loop ends with the update of its last byte. -/
theorem crcIsTheTableLoop : Obligations.CrcIsTheTableLoop := by
  refine fun T => ⟨crc_nil T, fun l b => ?_⟩
  rw [crc_append, setWidth_and_low_byte]
  rfl

/-- Settles O18: the generation is the definition, and the 256 entries are computed. -/
theorem crcTableAHasTheListedEntries : Obligations.CrcTableAHasTheListedEntries :=
  ⟨fun _ => rfl, by decide +kernel, by decide +kernel⟩

theorem field_value {w : CmdWord} {lo len : Nat} {v : BitVec len} (h : w.extractLsb' lo len = v) :
    w.toNat / 2 ^ lo % 2 ^ len = v.toNat :=
  (field_toNat w lo len).symm.trans (congrArg BitVec.toNat h)

/-- Settles O21: the whole next state is that of `exec_crcclr`, and no other row's word has OP = 6. -/
theorem crcclrSeedsTheAccumulator : Obligations.CrcclrSeedsTheAccumulator := by
  refine ⟨decode_encode .crcclr, exec_crcclr, fun w op other => ?_⟩
  have value : w.toNat ≠ 0x60000000 := fun h => other (BitVec.eq_of_toNat_eq h)
  have opcode : w.toNat / 2 ^ 28 % 2 ^ 4 = 6 := field_value op
  rw [decode_is_error_by_value]
  omega

/-- Settles O22: the whole next state is that of `exec_crcb`, and a row's word with OP = 7 is zero in 27:8. -/
theorem crcbFeedsOneByte : Obligations.CrcbFeedsOneByte := by
  refine ⟨exec_crcb, fun w op other => ?_⟩
  have opcode : w.toNat / 2 ^ 28 % 2 ^ 4 = 7 := field_value op
  rw [field_ne_zero_iff] at other
  rw [decode_is_error_by_value]
  omega

end Sys2Proof.Machine
end

section
/-! SUPPORT. PUSHB in closed form: the header test, the closed output of a verdict and of drops, and the whole next
state for every buffer (41_sync_rolling.md R130 to R135). -/

namespace Sys2Proof.Machine

open Sys2Proof.Safety

/-- Settles O31: both formulas, as the model's conditions give them. -/
theorem headerTestAndLength : Obligations.HeaderTestAndLength := by
  refine fun b0 b1 b2 => ⟨?_, ?_, ?_, ?_, ?_⟩
  · simp only [hdrOkA, Bool.or_eq_true, Bool.and_eq_true, decide_eq_true_eq, beq_iff_eq, and_assoc]
  · rintro rfl
    rfl
  · rintro rfl
    rfl
  · rintro rfl rfl
    rfl
  · intro not41 not57 not23
    rw [lenA, if_neg not41, if_neg not57, if_neg not23]

theorem encode_pushb_eq (b : Byte) : encode (.pushb b) = (0x200000 : BitVec 24) ++ b := by
  apply BitVec.eq_of_toNat_eq
  rw [encode_value, append_value]
  simp

/-- The byte of a refused PUSHB is discarded (R131). -/
theorem exec_pushb_wrongProfile (b : Byte) {s : State} (hp : s.profile = .B) : exec (.pushb b) s = .next
    { s with rdata := 0, events := [.wrongProfile ((0x200000 : BitVec 24) ++ b)], lastEvt := 0x9 } := by
  have refused : effect (.pushb b) s.openOutput = s.openOutput.emit (.wrongProfile (encode (.pushb b))) := by
    simp only [effect, pushByte, State.openOutput_profile, hp]
  rw [exec_is_effect, refused, State.closeOutput_emit, encode_pushb_eq]
  rfl

/-- The block of a refused PUSHBLK is discarded (R161). -/
theorem exec_pushblk_wrongProfile {s : State} (hp : s.profile = .A) : exec .pushblk s = .next
    { s with rdata := 0, events := [.wrongProfile 0x30000000], lastEvt := 0x9 } := by
  have refused : effect .pushblk s.openOutput = s.openOutput.emit (.wrongProfile (encode .pushblk)) := by
    simp only [effect, pushBlock, State.openOutput_profile, hp]
  rw [exec_is_effect, refused, State.closeOutput_emit]
  rfl

/-- Settles O30: either command emits the one event, and the frame of R259 writes its code. -/
theorem wrongProfileCommandsChangeNothing : Obligations.WrongProfileCommandsChangeNothing :=
  ⟨fun b _ => exec_pushb_wrongProfile b, fun _ => exec_pushblk_wrongProfile⟩

theorem not_headerAt_iff {l : List Byte} :
    ¬ headerAt l ↔ hdrOkA (frameAt l 0) (frameAt l 1) (frameAt l 2) = false :=
  (Bool.not_eq_true _).to_iff

theorem State.closeOutput_of_last {s : State} {l : List Event} {e : Event} (h : s.events = l ++ [e]) :
    s.closeOutput = s.setLastEvt e.code := by
  simp only [State.closeOutput, h, List.getLast?_concat]

/-- The validator inside a command's frame, after the events `before`, is the verdict written field by field. -/
theorem closeOutput_validate (P : Params) (f : List Byte) (prof : Profile) (before : List Event) (s : State) :
    (validate P f prof { s with rdata := 0, events := before }).closeOutput = verdict P f prof before s := by
  have range_iff : devInRange (deviceIndex P f prof) { s with rdata := 0, events := before } = true ↔
      ¬ (deviceIndex P f prof < 0 ∨ (s.deviceCount.toNat : Int) ≤ deviceIndex P f prof) := by
    rw [devInRange_iff]
    dsimp only
    omega
  unfold verdict
  rcases validate_cases P f prof { s with rdata := 0, events := before } with
    ⟨crc, h⟩ | ⟨crc, range, h⟩ | ⟨crc, range, h⟩
  · rw [h, State.closeOutput_emit, if_pos crc]
    rfl
  · have out := not_not.mp (mt range_iff.mpr (ne_true_of_eq_false range))
    rw [h, State.closeOutput_emit, if_neg (not_not.mpr crc), if_pos out]
    rfl
  · rw [h, accept_eq, State.closeOutput_of_last rfl, if_neg (not_not.mpr crc), if_neg (range_iff.mp range)]
    rfl

theorem State.setEvents_setEvents (s : State) (l m : List Event) : (s.setEvents l).setEvents m = s.setEvents m := rfl

/-- Under variant A PUSHB is the retry loop on the appended buffer, one byte shorter and one EVICT later past the
capacity (R133). -/
theorem pushByte_eq_syncLoop (P : Params) (b : Byte) {s : State} (hp : s.profile = .A) :
    pushByte P b s =
      syncLoop P (if 100 < (s.buf ++ [b]).length then (s.buf ++ [b]).drop 1 else s.buf ++ [b])
        (s.setEvents (s.events ++ if 100 < (s.buf ++ [b]).length then [.evict] else [])) := by
  by_cases full : 100 < (s.buf ++ [b]).length
  · rw [pushByte, hp, if_pos full, if_pos full]
    exact if_pos full
  · rw [pushByte, hp, if_neg full, if_neg full, List.append_nil]
    exact if_neg full

theorem State.closeOutput_eq (s : State) :
    s.closeOutput = s.setLastEvt ((s.events.getLast?.map Event.code).getD s.lastEvt) := by
  rcases s.closeOutput_cases with ⟨silent, h⟩ | ⟨e, last, h⟩
  · rw [h, silent]
    rfl
  · rw [h, last]
    rfl

/-- The code of the last event, and `c` when there is none (R39). -/
theorem lastCode_of_drops (c : BitVec 4) (evicts : Prop) [Decidable evicts] (k : Nat) :
    (((if evicts then [Event.evict] else []) ++ List.replicate k Event.hdrDrop).getLast?.map Event.code).getD c =
      if 0 < k then 0x2 else if evicts then 0x7 else c := by
  cases k with
  | zero => by_cases h : evicts <;> simp [h, Event.code]
  | succ k => simp [List.replicate_succ', ← List.append_assoc, Event.code]

/-- Closing the output after at most one EVICT and `k` HDR_DROPs: the code of the last one goes to LAST_EVT (R39). -/
theorem closeOutput_of_drops (s : State) (front : List Byte) (evicts : Prop) [Decidable evicts] (k : Nat) :
    ((s.openOutput.setEvents ((if evicts then [.evict] else []) ++ List.replicate k .hdrDrop)).setBuf
        front).closeOutput =
      { s with
        buf := front, rdata := 0, events := (if evicts then [.evict] else []) ++ List.replicate k .hdrDrop
        lastEvt := if 0 < k then 0x2 else if evicts then 0x7 else s.lastEvt } := by
  have code := lastCode_of_drops s.lastEvt evicts k
  rw [State.closeOutput_eq, State.setBuf_events, State.setEvents_events, State.setBuf_lastEvt,
    State.setEvents_lastEvt, State.openOutput_lastEvt, code]
  rfl

/-- The hand-off of a candidate after the events `before`: the buffer is emptied, and the verdict given (R130). -/
theorem closeOutput_handoff (P : Params) (f : List Byte) (before : List Event) (s : State) :
    (validate P f .A ((s.openOutput.setEvents before).setBuf [])).closeOutput =
      verdict P f .A before { s with buf := [] } :=
  closeOutput_validate P f .A before { s with buf := [] }

/-- The last byte of a frame gives the verdict on it, field by field (R130, R141). -/
theorem exec_pushb_verdict {f : List Byte} {b : Byte} {s : State} (hp : s.profile = .A) (hf : s.buf ++ [b] = f)
    (hdr : headerAt f) (hlen : f.length = headerLenA f) :
    exec (.pushb b) s = .next (verdict Config.params f .A [] { s with buf := [] }) := by
  rw [exec_pushb_of_last hp hf hdr hlen, ← closeOutput_handoff]
  rfl

/-- Settles O33: `syncLoop_cases` on the buffer after the append and the eviction, with the output closed. -/
theorem pushbFollowsTheRetryLoop : Obligations.PushbFollowsTheRetryLoop := by
  intro b s hp appended start evicted
  have loop : effect (.pushb b) s.openOutput = syncLoop Config.params start (s.openOutput.setEvents evicted) :=
    pushByte_eq_syncLoop Config.params b (s := s.openOutput) hp
  obtain ⟨k, hk, bad, ending⟩ := syncLoop_cases Config.params start (s.openOutput.setEvents evicted)
  refine ⟨k, hk, fun j hj => (bad j hj).imp_right not_headerAt_iff.mpr, ?_⟩
  rw [State.setEvents_setEvents, State.setEvents_events] at ending
  rw [exec_is_effect, loop]
  obtain ⟨waits, h⟩ | ⟨enough, hdr, whole, h⟩ := ending <;> rw [h]
  · refine .inl ⟨waits.imp_right And.right, congrArg Host.Outcome.next ?_⟩
    exact closeOutput_of_drops s (start.drop k) (100 < appended.length) k
  · exact .inr ⟨enough, hdr, whole, by rw [closeOutput_handoff]⟩

end Sys2Proof.Machine
end

section
/-! SUPPORT. PUSHB from a waiting buffer: what the invariant lets the appended byte do, and runs of bytes through a
locked window and through garbage (41_sync_rolling.md R138 to R141). -/

namespace Sys2Proof.Machine

open Sys2Proof.Safety

theorem headerAt_append {l : List Byte} (hl : 3 ≤ l.length) (m : List Byte) : headerAt (l ++ m) ↔ headerAt l := by
  rw [← headerAt_take (l := l ++ m) hl, List.take_left]

theorem headerLenA_append {l : List Byte} (hl : 3 ≤ l.length) (m : List Byte) :
    headerLenA (l ++ m) = headerLenA l := by
  rw [← headerLenA_take (l := l ++ m) hl, List.take_left]

/-- Settles O37: the header of the first bytes stays the header of the window, so the loop waits on every byte. -/
theorem lockedWindowIsNotReexamined : Obligations.LockedWindowIsNotReexamined := by
  intro l s hp hdr h5 short
  have waits (n : Nat) (hn : n < l.length) : Waiting (s.buf ++ l.take (n + 1)) := by
    have len : (s.buf ++ l.take (n + 1)).length = s.buf.length + (n + 1) := by
      rw [List.length_append, List.length_take, Nat.min_eq_left hn]
    refine .inr ⟨by omega, (headerAt_append (by omega) _).mpr hdr, ?_⟩
    rw [headerLenA_append (by omega)]
    omega
  rw [runInstrs_pushb_of_waiting hp waits]
  cases l with
  | nil => simp
  | cons b l => rfl

/-- The fifth byte without a header among the first three drops the oldest byte (R134). -/
theorem exec_pushb_of_fifth {b : Byte} {s : State} (hp : s.profile = .A) (h4 : s.buf.length = 4)
    (hb : ¬ headerAt (s.buf ++ [b])) :
    exec (.pushb b) s = .next
      { s with buf := (s.buf ++ [b]).drop 1, rdata := 0, events := [.hdrDrop], lastEvt := 0x2 } := by
  have len : (s.buf ++ [b]).length = 5 := by rw [List.length_append, h4, List.length_singleton]
  have rest : ((s.buf ++ [b]).drop 1).length < 5 := by
    rw [List.length_drop]
    omega
  have dropped : effect (.pushb b) s.openOutput = (s.openOutput.emit .hdrDrop).setBuf ((s.buf ++ [b]).drop 1) := by
    rw [← syncLoop_of_short Config.params _ rest,
      ← syncLoop_of_bad_header Config.params _ len.ge (not_headerAt_iff.mp hb)]
    exact pushByte_of_room _ b (s := s.openOutput) hp (by rw [State.openOutput_buf]; omega)
  rw [exec_is_effect, dropped, State.closeOutput_of_last (l := []) rfl]
  rfl

/-- R138's case analysis: from a buffer that meets the invariant, the appended byte leaves a buffer to wait on, or is
a fifth one without a header, or completes a frame. -/
theorem append_cases_of_syncInv {s : State} (h : SyncInv s) (hp : s.profile = .A) (b : Byte) :
    Waiting (s.buf ++ [b]) ∨ (s.buf.length = 4 ∧ ¬ headerAt (s.buf ++ [b])) ∨
      (headerAt (s.buf ++ [b]) ∧ (s.buf ++ [b]).length = headerLenA (s.buf ++ [b])) := by
  have len : (s.buf ++ [b]).length = s.buf.length + 1 := List.length_append
  unfold SyncInv at h
  rw [hp] at h
  rcases h with short | ⟨hdr, h5, hlt⟩
  · by_cases h4 : s.buf.length = 4
    · by_cases hdr : headerAt (s.buf ++ [b])
      · have bounds := headerLenA_bounds hdr
        exact .inl (.inr ⟨by omega, hdr, by omega⟩)
      · exact .inr (.inl ⟨h4, hdr⟩)
    · exact .inl (.inl (by omega))
  · have hdr' := (headerAt_append (by omega) [b]).mpr hdr
    rw [← headerLenA_append (by omega) [b]] at hlt
    by_cases whole : (s.buf ++ [b]).length = headerLenA (s.buf ++ [b])
    · exact .inr (.inr ⟨hdr', whole⟩)
    · exact .inl (.inr ⟨by omega, hdr', by omega⟩)

/-- A locked buffer is short of the longest frame, 57 bytes (R139 (a)). -/
theorem syncInv_length_le {s : State} (h : SyncInv s) : s.buf.length ≤ 56 := by
  unfold SyncInv at h
  cases hp : s.profile <;> rw [hp] at h
  case A =>
    rcases h with short | ⟨hdr, _, hlt⟩
    · omega
    · have := headerLenA_bounds hdr
      omega
  case B => rw [h]; exact Nat.zero_le 56

/-- At most one event, and it is neither EVICT nor LEN_ZERO (R139 (b) and (d)). -/
def QuietEvents (l : List Event) : Prop := l.length ≤ 1 ∧ .evict ∉ l ∧ .lenZero ∉ l

theorem quietEvents_validate (P : Params) (f : List Byte) (prof : Profile) {s : State} (h : s.events = []) :
    QuietEvents (validate P f prof s).events := by
  rcases validate_cases P f prof s with ⟨_, e⟩ | ⟨_, _, e⟩ | ⟨_, _, e⟩ <;> rw [e] <;>
    simp [QuietEvents, accept_eq, h]

theorem exec_pushb_quiet {b : Byte} {s t : State} (inv : SyncInv s) (he : exec (.pushb b) s = .next t) :
    QuietEvents t.events := by
  cases hp : s.profile with
  | B =>
    cases he.symm.trans (exec_pushb_wrongProfile b hp)
    simp [QuietEvents]
  | A =>
    rcases append_cases_of_syncInv inv hp b with waits | ⟨h4, bad⟩ | ⟨hdr, whole⟩
    · cases he.symm.trans (exec_pushb_of_waiting hp waits)
      simp [QuietEvents]
    · cases he.symm.trans (exec_pushb_of_fifth hp h4 bad)
      simp [QuietEvents]
    · cases he.symm.trans (exec_pushb_of_last hp rfl hdr whole)
      rw [State.closeOutput_events]
      exact quietEvents_validate _ _ _ rfl

/-- Settles O36: the invariant bounds the buffer before and after, and lets the byte do one of three things. -/
theorem pushbUnderTheInvariant : Obligations.PushbUnderTheInvariant := by
  intro b s t inv he
  obtain ⟨one, noEvict, noLenZero⟩ := exec_pushb_quiet inv he
  exact ⟨one, noEvict, noLenZero, syncInv_length_le inv, syncInv_length_le (exec_syncInv he inv)⟩

/-- No header starts inside the garbage `g` when `rest` follows it. -/
def HeaderFree (g rest : List Byte) : Prop := ∀ k, k < g.length → ¬ headerAt ((g ++ rest).drop k)

theorem HeaderFree.head {x : Byte} {g rest : List Byte} (h : HeaderFree (x :: g) rest) :
    ¬ headerAt (x :: g ++ rest) :=
  h 0 (Nat.succ_pos _)

theorem HeaderFree.tail {x : Byte} {g rest : List Byte} (h : HeaderFree (x :: g) rest) : HeaderFree g rest :=
  fun k hk => h (k + 1) (Nat.succ_lt_succ hk)

/-- Bytes that end one short of a frame's last are appended, whatever of the frame the buffer holds already (R140). -/
theorem runInstrs_pushb_of_prefix {f l : List Byte} {last : Byte} {s : State} (hp : s.profile = .A)
    (hdr : headerAt (f ++ [last])) (hlen : (f ++ [last]).length = headerLenA (f ++ [last])) (split : s.buf ++ l = f) :
    ∃ r e, runInstrs (l.map .pushb) s = some ({ s with buf := f, rdata := r, events := e }, []) := by
  subst split
  have waits (n : Nat) (hn : n < l.length) : Waiting (s.buf ++ l.take (n + 1)) := by
    have first := waiting_take (n := s.buf.length + (n + 1)) hdr (by
      rw [← hlen, List.length_append, List.length_append, List.length_singleton]
      omega)
    rwa [List.append_assoc, List.take_length_add_append, List.take_append_of_le_length hn] at first
  rw [runInstrs_pushb_of_waiting hp waits]
  cases l with
  | nil => exact ⟨s.rdata, s.events, by simp⟩
  | cons b l => exact ⟨0, [], rfl⟩

/-- With four bytes buffered, each further byte drops one byte of the garbage `g` in front of the frame (R134). -/
theorem runInstrs_pushb_of_garbage {f g l : List Byte} {last : Byte} {s : State} (hp : s.profile = .A)
    (hdr : headerAt (f ++ [last])) (hlen : (f ++ [last]).length = headerLenA (f ++ [last]))
    (free : HeaderFree g (f ++ [last])) (four : s.buf.length = 4) (split : s.buf ++ l = g ++ f) :
    ∃ c r e, runInstrs (l.map .pushb) s =
      some ({ s with buf := f, lastEvt := c, rdata := r, events := e }, List.replicate g.length .hdrDrop) := by
  induction g generalizing l s with
  | nil =>
    obtain ⟨r, e, run⟩ := runInstrs_pushb_of_prefix hp hdr hlen split
    exact ⟨s.lastEvt, r, e, run⟩
  | cons x g ih =>
    have bounds := headerLenA_bounds hdr
    have flen : (f ++ [last]).length = f.length + 1 := List.length_append
    have slen := congrArg List.length split
    simp only [List.length_append, List.length_cons] at slen
    obtain ⟨b, l, rfl⟩ := List.exists_cons_of_length_pos (show 0 < l.length by omega)
    have split' : s.buf ++ [b] ++ l = x :: g ++ f := by rw [← split, List.append_assoc, List.singleton_append]
    have len : (s.buf ++ [b]).length = 5 := by rw [List.length_append, four, List.length_singleton]
    have bad : ¬ headerAt (s.buf ++ [b]) := by
      rw [← headerAt_append (by omega) (l ++ [last]), ← List.append_assoc, split', List.append_assoc]
      exact free.head
    have dropped : (s.buf ++ [b]).drop 1 ++ l = g ++ f := by
      rw [← List.drop_append_of_le_length (by omega), split']
      rfl
    obtain ⟨c, r, e, run⟩ := ih hp (s := { s with
      buf := (s.buf ++ [b]).drop 1, rdata := 0, events := [.hdrDrop], lastEvt := 0x2 }) free.tail
      (by rw [List.length_drop, len]) dropped
    exact ⟨c, r, e, by rw [List.map_cons, runInstrs_cons (exec_pushb_of_fifth hp four bad), run]; rfl⟩

/-- The first four bytes into an empty buffer are only appended (R130). -/
theorem runInstrs_pushb_first_four {l : List Byte} {s : State} (hp : s.profile = .A) (hbuf : s.buf = [])
    (hl : l.length = 4) : runInstrs (l.map .pushb) s = some (s.openOutput.setBuf l, []) := by
  have waits (n : Nat) (hn : n < l.length) : Waiting (s.buf ++ l.take (n + 1)) := by
    refine .inl ?_
    rw [hbuf, List.nil_append, List.length_take]
    omega
  rw [runInstrs_pushb_of_waiting hp waits, if_neg (List.ne_nil_of_length_pos (by omega)), hbuf, List.nil_append]

/-- Settles O38: four bytes fill the buffer, the others drop the garbage and complete the frame but for its last byte,
which hands it off. -/
theorem garbageThenFrameIsHandedOffWhole : Obligations.GarbageThenFrameIsHandedOffWhole := by
  intro g f last s hp hbuf hdr hlen free
  have bounds := headerLenA_bounds hdr
  have flen : (f ++ [last]).length = f.length + 1 := List.length_append
  have four : ((g ++ f).take 4).length = 4 := by
    rw [List.length_take, List.length_append]
    omega
  have headerFree : HeaderFree g (f ++ [last]) := fun k hk => List.append_assoc g f [last] ▸ free k hk
  obtain ⟨c, r, e, rest⟩ := runInstrs_pushb_of_garbage (s := s.openOutput.setBuf ((g ++ f).take 4)) hp hdr hlen
    headerFree four (List.take_append_drop 4 (g ++ f))
  have run := runInstrs_append (m := ((g ++ f).drop 4).map .pushb) (runInstrs_pushb_first_four hp hbuf four)
  rw [rest, ← List.map_append, List.take_append_drop] at run
  exact ⟨_, run, rfl, rfl, rfl, rfl, rfl, rfl, rfl, rfl, rfl,
    exec_pushb_verdict (s := { s with buf := f, lastEvt := c, rdata := r, events := e }) hp rfl hdr hlen⟩

end Sys2Proof.Machine
end

section
/-! SUPPORT. PUSHBLK in closed form: its checks in the order of R160, and its one event (42_sync_block.md R160, R161,
R165). -/

namespace Sys2Proof.Machine

open Sys2Proof.Safety

theorem not_devInRange_iff {dev : Int} {s : State} :
    ¬ devInRange dev s = true ↔ dev < 0 ∨ (s.deviceCount.toNat : Int) ≤ dev := by
  rw [devInRange_iff]
  omega

/-- Everything PUSHBLK's effect can do: the refusal under variant A, one of the two checks that discard the block, or
the validator on the block. -/
theorem pushBlock_cases (P : Params) (s : State) :
    (s.profile = .A ∧ pushBlock P s = s.emit (.wrongProfile (encode .pushblk))) ∨
    (s.profile = .B ∧ markerOkB P (busBytes s.bus) = false ∧ pushBlock P s = s.emit .blkReject) ∨
    (s.profile = .B ∧ markerOkB P (busBytes s.bus) = true ∧
      (deviceIndex P (busBytes s.bus) .B < 0 ∨ (s.deviceCount.toNat : Int) ≤ deviceIndex P (busBytes s.bus) .B) ∧
      pushBlock P s = s.emit (.devRange (deviceIndex P (busBytes s.bus) .B))) ∨
    (s.profile = .B ∧ markerOkB P (busBytes s.bus) = true ∧
      ¬ (deviceIndex P (busBytes s.bus) .B < 0 ∨ (s.deviceCount.toNat : Int) ≤ deviceIndex P (busBytes s.bus) .B) ∧
      pushBlock P s = validate P (busBytes s.bus) .B s) := by
  rw [← not_devInRange_iff, not_not]
  cases hp : s.profile with
  | A => exact .inl ⟨rfl, by simp [pushBlock, hp]⟩
  | B =>
    cases marker : markerOkB P (busBytes s.bus) with
    | false => exact .inr (.inl ⟨rfl, rfl, by simp [pushBlock, hp, marker]⟩)
    | true =>
      by_cases range : devInRange (deviceIndex P (busBytes s.bus) .B) s = true
      · exact .inr (.inr (.inr ⟨rfl, rfl, range, by simp [pushBlock, hp, marker, range]⟩))
      · exact .inr (.inr (.inl ⟨rfl, rfl, range, by simp [pushBlock, hp, marker, range]⟩))

/-- PUSHBLK emits exactly one event: its own, or the validator's. -/
theorem pushBlock_events (P : Params) (s : State) : ∃ e, (pushBlock P s).events = s.events ++ [e] := by
  obtain ⟨_, h⟩ | ⟨_, _, h⟩ | ⟨_, _, _, h⟩ | ⟨_, _, _, h⟩ := pushBlock_cases P s <;> rw [h]
  · exact ⟨_, rfl⟩
  · exact ⟨_, rfl⟩
  · exact ⟨_, rfl⟩
  · exact validate_events P _ .B s

/-- The whole next state of PUSHBLK under variant B: marker, then device range, then the verdict (R160). -/
theorem exec_pushblk_profileB {s : State} (hp : s.profile = .B) : exec .pushblk s = .next
    (if markerOkB Config.params (busBytes s.bus) = false then
      { s with rdata := 0, events := [.blkReject], lastEvt := 0x6 }
    else if deviceIndex Config.params (busBytes s.bus) .B < 0 ∨
        (s.deviceCount.toNat : Int) ≤ deviceIndex Config.params (busBytes s.bus) .B then
      { s with rdata := 0, events := [.devRange (deviceIndex Config.params (busBytes s.bus) .B)], lastEvt := 0x5 }
    else verdict Config.params (busBytes s.bus) .B [] s) := by
  rw [exec_is_effect, effect]
  have outcomes := pushBlock_cases Config.params s.openOutput
  rw [State.openOutput_profile, State.openOutput_bus, State.openOutput_deviceCount] at outcomes
  obtain ⟨wrong, _⟩ | ⟨_, marker, h⟩ | ⟨_, marker, out, h⟩ | ⟨_, marker, within, h⟩ := outcomes
  · cases wrong.symm.trans hp
  · rw [h, State.closeOutput_emit, if_pos marker]
    rfl
  · rw [h, State.closeOutput_emit, if_neg (ne_false_of_eq_true marker), if_pos out]
    rfl
  · rw [h, if_neg (ne_false_of_eq_true marker), if_neg within]
    exact congrArg Host.Outcome.next (closeOutput_validate _ _ .B [] s)

/-- Settles O41: the illegal words by value, and the whole next state under either variant. -/
theorem pushblkChecksInOrder : Obligations.PushblkChecksInOrder := by
  refine ⟨decode_encode .pushblk, fun w op other => ?_, fun _ => exec_pushblk_wrongProfile,
    fun _ => exec_pushblk_profileB⟩
  have value : w.toNat ≠ 0x30000000 := fun h => other (BitVec.eq_of_toNat_eq h)
  have opcode : w.toNat / 2 ^ 28 % 2 ^ 4 = 3 := field_value op
  rw [decode_is_error_by_value]
  omega

/-- Settles O42: the output opens without events, and the effect emits one. -/
theorem pushblkEmitsOneEvent : Obligations.PushblkEmitsOneEvent := by
  intro s t he
  obtain ⟨e, h⟩ := pushBlock_events Config.params s.openOutput
  rw [exec_next_iff.mp he, State.closeOutput_events, effect, h]
  rfl

end Sys2Proof.Machine
end

section
/-! The validator as one function of the candidate (43_validator.md R200, R202, R203, R207, R234). -/

namespace Sys2Proof.Machine

/-- Settles O43: the validator's three outcomes are the three branches of the verdict, inside the frame that writes
LAST_EVT. -/
theorem validatorGivesTheVerdict : Obligations.ValidatorGivesTheVerdict :=
  closeOutput_validate

end Sys2Proof.Machine
end

section
/-! SUPPORT. The model's alarm maps against the maps R231 writes, and the order of a label category's ranks
(44_alarm_decoder.md R231, R232). -/

namespace Sys2Proof.Machine

theorem mem_cellCats (c : CellCat) : c ∈ cellCats := by
  cases c <;> decide

theorem inCells_iff {n : Nat} {M : AlarmMap n} {c : CellCat} {j : Nat} :
    inCells M c j = true ↔ ∃ h : j < n, M ⟨j, h⟩ = .cell c := by
  unfold inCells
  split
  · next h => cases hM : M ⟨j, h⟩ <;> simp [h, hM]
  · next h => simp [h]

/-- A payload byte gives its bits to one cell category at most. -/
theorem inCells_unique {n : Nat} {M : AlarmMap n} {c d : CellCat} {j : Nat} (hc : inCells M c j = true)
    (hd : inCells M d j = true) : c = d := by
  obtain ⟨_, hc⟩ := inCells_iff.mp hc
  obtain ⟨_, hd⟩ := inCells_iff.mp hd
  exact ByteRole.cell.inj (hc.symm.trans hd)

/-- R231: the offsets are in range, the lists ascending, and no offset is in two lists. -/
theorem wellFormed_iff {n : Nat} {F : MapForm} :
    F.wellFormed n = true ↔
      (∀ c, ∀ j ∈ F.cells c, j < n) ∧ (∀ c, (F.cells c).Pairwise (· < ·)) ∧
      ∀ c d j, j ∈ F.cells c → j ∈ F.cells d → c = d := by
  simp only [MapForm.wellFormed, Bool.and_eq_true, List.all_eq_true, mem_cellCats, forall_const, decide_eq_true_iff,
    forall_and, and_assoc, Bool.or_eq_true, beq_iff_eq, Bool.not_eq_true', List.contains_eq_mem,
    decide_eq_false_iff_not]
  refine and_congr_right' (and_congr_right' (forall₂_congr fun c d => ?_))
  by_cases h : c = d <;> simp [h]

/-- The lists and labels of a map of the model, written as R231 writes them, are well formed. -/
theorem wellFormed_of_map {n : Nat} (M : AlarmMap n) :
    MapForm.wellFormed n { cells := mapCells M, label := mapLabel M } = true := by
  refine wellFormed_iff.mpr ⟨fun c j hj => ?_, mapCells_sorted M, fun c d j hc hd => ?_⟩
  · exact inCells_lt M ((mem_mapCells M).mp hj)
  · exact inCells_unique ((mem_mapCells M).mp hc) ((mem_mapCells M).mp hd)

section
variable {n : Nat} {F : MapForm} (wf : F.wellFormed n = true)
include wf

/-- The map of a well-formed form gives a byte to the category that lists it. -/
theorem inCells_toMap {c : CellCat} {j : Nat} : inCells (F.toMap n) c j = true ↔ j ∈ F.cells c := by
  obtain ⟨bound, _, disjoint⟩ := wellFormed_iff.mp wf
  rw [inCells_iff]
  unfold MapForm.toMap
  constructor
  · rintro ⟨_, role⟩
    split at role
    · next d found =>
      cases role
      simpa using List.find?_some found
    · cases role
  · intro listed
    refine ⟨bound c j listed, ?_⟩
    split
    · next d found => rw [disjoint d c j (by simpa using List.find?_some found) listed]
    · next unlisted => exact absurd listed (by simpa using List.find?_eq_none.mp unlisted c (mem_cellCats c))

theorem mapCells_toMap (c : CellCat) : mapCells (F.toMap n) c = F.cells c := by
  obtain ⟨_, ascending, _⟩ := wellFormed_iff.mp wf
  exact (mapCells_sorted _ c).eq_of_mem_iff (ascending c) fun _ => (mem_mapCells _).trans (inCells_toMap wf)
end

/-- A byte that no cell list names keeps the labels of its bits. -/
theorem mapLabel_toMap {n : Nat} {F : MapForm} {j i : Nat} (hj : j < n) (hi : i < 8) (unlisted : ∀ c, j ∉ F.cells c) :
    mapLabel (F.toMap n) j i = F.label j i := by
  have none_found : cellCats.find? (fun c => (F.cells c).contains j) = none := by simpa using fun c _ => unlisted c
  have role : F.toMap n ⟨j, hj⟩ = .label fun i => F.label j i.val := by
    unfold MapForm.toMap
    rw [none_found]
  rw [mapLabel, dif_pos ⟨hj, hi⟩, role]

/-- Settles O48: one role per byte keeps the lists in range, ascending and disjoint, and a well-formed form gives each
byte one role. -/
theorem alarmMapsAreTheWellFormedOnes : Obligations.AlarmMapsAreTheWellFormedOnes := by
  refine ⟨fun n M => ⟨wellFormed_of_map M, fun c j i hj => ?_⟩,
    fun n F wf => ⟨mapCells_toMap wf, fun j i hj hi unlisted => mapLabel_toMap hj hi unlisted⟩⟩
  exact mapLabel_of_cell M ((mem_mapCells M).mp hj) i

/-- Bit-scan order: by byte, then by bit (R232). -/
def scannedBefore (x y : Nat × Nat) : Prop := x.1 < y.1 ∨ (x.1 = y.1 ∧ x.2 < y.2)

theorem byteBits_scanned (j : Nat) : (byteBits j).Pairwise scannedBefore :=
  List.pairwise_map.mpr (List.pairwise_lt_range.imp fun h => .inr ⟨rfl, h⟩)

/-- The bits of ascending bytes are in bit-scan order. -/
theorem flatMap_byteBits_scanned {l : List Nat} (h : l.Pairwise (· < ·)) :
    (l.flatMap byteBits).Pairwise scannedBefore := by
  refine List.pairwise_flatMap.mpr ⟨fun j _ => byteBits_scanned j, h.imp fun before x hx y hy => .inl ?_⟩
  rwa [(mem_byteBits.mp hx).1, (mem_byteBits.mp hy).1]

theorem ranks_label_scanned {n : Nat} (M : AlarmMap n) (c : LabelCat) : (ranks M (.label c)).Pairwise scannedBefore :=
  (flatMap_byteBits_scanned List.pairwise_lt_range).filter _

/-- Settles O49: a label category filters the scan of all bits, and a cell category scans the bytes of its list. -/
theorem rankSequencesAreTheSpecs : Obligations.RankSequencesAreTheSpecs := fun _ M =>
  ⟨fun c => ⟨fun _ _ => mem_ranks_label M, ranks_label_scanned M c⟩,
    fun c => ⟨flatMap_byteBits_length (mapCells M c), flatMap_byteBits_get (mapCells M c)⟩, ranks_length_le M⟩

end Sys2Proof.Machine
end

section
/-! SUPPORT. The multiplexer's numbering of the categories, what the alarm reads depend on, and the composed list
(44_alarm_decoder.md R230, R235, R236, R239, R241). -/

namespace Sys2Proof.Machine

/-- The number by which CAT selects a category (R230). -/
def catNumber : Category → Nat
  | .label .alarm => 0
  | .label .protection => 1
  | .label .sysstatus => 2
  | .label .fet => 3
  | .cell .vlow => 4
  | .cell .vhigh => 5
  | .cell .tlow => 6
  | .cell .thigh => 7
  | .cell .bal => 8

theorem categoryOf_of_number {cat : BitVec 4} {c : Category} (h : cat.toNat = catNumber c) :
    categoryOf cat = some c := by
  rw [categoryOf, h]
  rcases c with c | c <;> cases c <;> rfl

theorem categoryOf_of_nine_le {cat : BitVec 4} (h : 9 ≤ cat.toNat) : categoryOf cat = none := by
  obtain ⟨k, past⟩ : ∃ k, cat.toNat = k + 9 := ⟨_, (Nat.sub_add_cancel h).symm⟩
  rw [categoryOf, past]
  rfl

theorem alarmOut_of_category {s : State} {c : Category} (P : Params) (h : categoryOf s.cat = some c) :
    alarmOut P s = categoryVector P s.alm c := by
  rw [alarmOut, h]

theorem alarmOut_of_none {s : State} (P : Params) (h : categoryOf s.cat = none) : alarmOut P s = 0 := by
  rw [alarmOut, h]

/-- Settles O50: the bits of a vector are those of its ranks, and CAT's number names the category. -/
theorem selectedVectorBits : Obligations.SelectedVectorBits := by
  refine ⟨fun P a c r => ?_, fun P s => ⟨fun h => alarmOut_of_none P (categoryOf_of_nine_le h),
    fun c h => alarmOut_of_category P (categoryOf_of_number h)⟩⟩
  rw [categoryVector_bit]
  cases a.prof <;> simp only [profileRanks]
  · cases (ranks P.alarmMapA c)[r]? <;> rfl
  · cases (ranks P.alarmMapB c)[r]? <;> rfl

/-- R241: the multiplexer reads the alarm latch and CAT. -/
theorem alarmOut_congr {s s' : State} (P : Params) (halm : s.alm = s'.alm) (hcat : s.cat = s'.cat) :
    alarmOut P s = alarmOut P s' := by
  rw [alarmOut, alarmOut, halm, hcat]

theorem regRead_almstat_congr {s s' : State} (P : Params) (halm : s.alm = s'.alm) (hcat : s.cat = s'.cat) :
    regRead P s .almstat = regRead P s' .almstat := by
  simp only [regRead, selCount, alarmOut_congr P halm hcat, halm]

theorem regRead_almout_congr {s s' : State} (P : Params) (halm : s.alm = s'.alm) (hcat : s.cat = s'.cat) (k : Fin 16) :
    regRead P s (.almout k) = regRead P s' (.almout k) := by
  simp only [regRead, alarmOut_congr P halm hcat]

theorem regAt_almout {a : BitVec 8} (h : 0x20 ≤ a.toNat ∧ a.toNat ≤ 0x2F) : ∃ k, regAt a = some (.almout k) := by
  unfold regAt
  rw [dif_pos h]
  exact ⟨_, rfl⟩

/-- RDREG of one mapped register gives equal data in two states that agree on that register. -/
theorem exec_rdreg_rdata_congr {a : BitVec 8} {r : Reg} {s s' : State} (h : regAt a = some r)
    (read : regRead Config.params s r = regRead Config.params s' r) :
    ∃ t t', exec (.rdreg a) s = .next t ∧ exec (.rdreg a) s' = .next t' ∧ t.rdata = t'.rdata :=
  ⟨_, _, exec_rdreg_of_mapped h s, exec_rdreg_of_mapped h s', read⟩

/-- Settles O55: ALMSTAT and the ALMOUT words read the alarm latch and OUT. -/
theorem alarmReadsDependOnLatchAndCatOnly : Obligations.AlarmReadsDependOnLatchAndCatOnly := by
  rintro s s' a halm hcat (almstat | almout)
  · have address : a = regAddr .almstat := BitVec.eq_of_toNat_eq almstat
    exact exec_rdreg_rdata_congr (address ▸ regAt_regAddr .almstat) (regRead_almstat_congr _ halm hcat)
  · obtain ⟨k, mapped⟩ := regAt_almout almout
    exact exec_rdreg_rdata_congr mapped (regRead_almout_congr _ halm hcat k)

/-- Settles O54: the branches of the composition. -/
theorem compositionRule : Obligations.CompositionRule := by
  intro low high
  refine ⟨fun hl hh => if_pos ⟨hl, hh⟩, fun hl hh => ?_, fun hl hh => ?_, fun hl hh => ?_⟩ <;> simp [compose, hl, hh]

end Sys2Proof.Machine
end

section
/-! SUPPORT. The cell and label lists, from the ranks that are set and from the bytes of the payload
(44_alarm_decoder.md R232, R237, R238, R240). -/

namespace Sys2Proof.Machine

/-- The payload bytes that a profile's alarm map covers (R231). -/
def mapSize : Profile → Nat
  | .A => 18
  | .B => 26

/-- The alarm map of a profile (R235). -/
def profileMap (P : Params) : (prof : Profile) → AlarmMap (mapSize prof)
  | .A => P.alarmMapA
  | .B => P.alarmMapB

theorem profileRanks_eq (P : Params) (prof : Profile) (c : Category) :
    profileRanks P prof c = ranks (profileMap P prof) c := by
  cases prof <;> rfl

theorem profileLabel_eq (P : Params) (prof : Profile) (j i : Nat) :
    profileLabel P prof j i = mapLabel (profileMap P prof) j i := by
  cases prof <;> rfl

theorem profileLabel_bounds {P : Params} {prof : Profile} {j i : Nat} {x : LabelCat × LabelId}
    (h : profileLabel P prof j i = some x) : j < mapSize prof ∧ i < 8 :=
  mapLabel_bounds (profileMap P prof) ((profileLabel_eq P prof j i).symm.trans h)

theorem profileLabel_of_rank {P : Params} {prof : Profile} {c : LabelCat} {pos : Nat × Nat}
    (h : pos ∈ profileRanks P prof (.label c)) : ∃ id, profileLabel P prof pos.1 pos.2 = some (c, id) := by
  rw [profileRanks_eq] at h
  rw [profileLabel_eq]
  exact (mem_ranks_label _).mp h

/-- The label of a rank is the one its payload bit has, and is of the rank's category. -/
theorem labelAt_of_rank {P : Params} {a : AlarmLatch} {c : LabelCat} {r : Nat} {pos : Nat × Nat}
    (h : (profileRanks P a.prof (.label c))[r]? = some pos) :
    ∃ id, profileLabel P a.prof pos.1 pos.2 = some (c, id) ∧ labelAt P a c r = some id := by
  obtain ⟨id, label⟩ := profileLabel_of_rank (List.mem_of_getElem? h)
  refine ⟨id, label, ?_⟩
  simp only [labelAt, h, label, Option.map_some]

theorem rank_of_mem_setRanks {P : Params} {a : AlarmLatch} {c : Category} {r : Nat} (h : r ∈ setRanks P a c) :
    ∃ pos, (profileRanks P a.prof c)[r]? = some pos :=
  ⟨_, List.getElem?_eq_getElem (List.mem_range.mp (List.mem_filter.mp h).1)⟩

/-- A filter that keeps every entry answers one result per entry, in order. -/
theorem forall₂_filterMap {α β : Type} {f : α → Option β} {R : α → β → Prop} {l : List α}
    (h : ∀ x ∈ l, ∃ y, f x = some y ∧ R x y) : List.Forall₂ R l (l.filterMap f) := by
  induction l with
  | nil => exact .nil
  | cons x l ih =>
    obtain ⟨y, found, related⟩ := h x List.mem_cons_self
    rw [List.filterMap_cons_some found]
    exact .cons related (ih fun z hz => h z (List.mem_cons_of_mem x hz))

/-- Settles O52: both lists are made of the set ranks, and every rank of a label category has a label. -/
theorem observedListsFollowTheVectors : Obligations.ObservedListsFollowTheVectors := by
  refine fun P a => ⟨fun c => ⟨?_, by simp [cells], fun r => ?_⟩,
    fun c => ⟨setRanks P a (.label c), setRanks_sorted P a _, fun r => mem_setRanks, forall₂_filterMap fun r hr => ?_⟩⟩
  · exact List.pairwise_map.mpr ((setRanks_sorted P a _).imp Nat.succ_lt_succ)
  · rw [cells, List.mem_map_of_injective (add_left_injective 1), mem_setRanks]
  · obtain ⟨⟨j, i⟩, rank⟩ := rank_of_mem_setRanks hr
    obtain ⟨id, label, named⟩ := labelAt_of_rank rank
    refine ⟨id, named, j, i, ?_⟩
    cases hprof : a.prof <;> rw [hprof] at rank label <;> exact ⟨rank, label⟩

/-- What a payload bit adds to the list of category c: its label of that category, while it is set (R237). -/
def shownId (P : Params) (a : AlarmLatch) (c : LabelCat) (pos : Nat × Nat) : Option LabelId :=
  match profileLabel P a.prof pos.1 pos.2 with
  | some (d, id) => if d = c ∧ payloadBit a.p pos = true then some id else none
  | none => none

theorem shownId_of_label {P : Params} {a : AlarmLatch} {c : LabelCat} {pos : Nat × Nat} {id : LabelId}
    (h : profileLabel P a.prof pos.1 pos.2 = some (c, id)) :
    shownId P a c pos = if payloadBit a.p pos = true then some id else none := by
  simp [shownId, h]

theorem shownId_eq_none {P : Params} {a : AlarmLatch} {c : LabelCat} {pos : Nat × Nat}
    (h : ∀ id, profileLabel P a.prof pos.1 pos.2 = some (c, id) → payloadBit a.p pos = false) :
    shownId P a c pos = none := by
  unfold shownId
  split
  · next d id label =>
    refine if_neg fun ⟨same, set⟩ => ?_
    rw [h id (same ▸ label)] at set
    cases set
  · rfl

/-- Filtering a list by its indexes is filtering the list. -/
theorem filterMap_range_getElem? {α β : Type} (f : α → Option β) (l : List α) :
    (List.range l.length).filterMap (fun r => l[r]?.bind f) = l.filterMap f := by
  induction l with
  | nil => rfl
  | cons x l ih =>
    rw [List.length_cons, List.range_succ_eq_map, List.filterMap_cons, List.filterMap_map, List.filterMap_cons, ← ih]
    rfl

/-- What a payload byte adds to the list of category c, bit 0 first. -/
def byteIds (P : Params) (a : AlarmLatch) (c : LabelCat) (j : Nat) : List LabelId :=
  (byteBits j).filterMap (shownId P a c)

/-- The labels of a valid latch are those its ranks show. -/
theorem labels_eq_filterMap_ranks {P : Params} {a : AlarmLatch} (valid : a.valid = true) (c : LabelCat) :
    labels P a c = (profileRanks P a.prof (.label c)).filterMap (shownId P a c) := by
  rw [labels, setRanks, List.filterMap_filter, ← filterMap_range_getElem? (shownId P a c)]
  refine List.filterMap_congr fun r _ => ?_
  rw [categoryVector_bit, valid, Bool.true_and]
  cases rank : (profileRanks P a.prof (.label c))[r]? with
  | none => rfl
  | some pos =>
    obtain ⟨id, label, named⟩ := labelAt_of_rank rank
    rw [named]
    exact (shownId_of_label label).symm

/-- R237: the label list goes through the payload byte by byte, since ranks follow the bit scan. -/
theorem labels_eq_flatMap_bytes {P : Params} {a : AlarmLatch} (valid : a.valid = true) (c : LabelCat) :
    labels P a c = (List.range (mapSize a.prof)).flatMap (byteIds P a c) := by
  rw [labels_eq_filterMap_ranks valid, profileRanks_eq, ranks, List.filterMap_filter]
  refine (List.filterMap_congr fun pos _ => ?_).trans List.filterMap_flatMap
  split
  · rfl
  · next unlabelled =>
    refine (shownId_eq_none fun id label => absurd ?_ unlabelled).symm
    exact (inLabels_iff _).mpr ⟨id, (profileLabel_eq P a.prof pos.1 pos.2).symm.trans label⟩

/-- A byte without a set bit of the category adds nothing. -/
theorem byteIds_eq_nil {P : Params} {a : AlarmLatch} {c : LabelCat} {j : Nat}
    (h : ∀ i id, profileLabel P a.prof j i = some (c, id) → payloadBit a.p (j, i) = false) : byteIds P a c j = [] := by
  refine List.filterMap_eq_nil_iff.mpr fun pos hpos => shownId_eq_none fun id label => ?_
  obtain ⟨_, i⟩ := pos
  obtain ⟨rfl, _⟩ := mem_byteBits.mp hpos
  exact h i id label

/-- When one byte alone adds labels, its labels are the list. -/
theorem labels_of_one_byte {P : Params} {a : AlarmLatch} (valid : a.valid = true) {c : LabelCat} {j : Nat}
    (hj : j < mapSize a.prof) (others : ∀ j', j' ≠ j → byteIds P a c j' = []) : labels P a c = byteIds P a c j := by
  obtain ⟨before, after, split_at⟩ := List.append_of_mem (List.mem_range.mpr hj)
  have nodup : (before ++ j :: after).Nodup := split_at ▸ List.nodup_range
  obtain ⟨fresh, _⟩ := List.nodup_cons.mp (List.nodup_middle.mp nodup)
  simp only [List.mem_append, not_or] at fresh
  have nil_before : before.flatMap (byteIds P a c) = [] :=
    List.flatMap_eq_nil_iff.mpr fun j' h => others j' fun same => fresh.1 (same ▸ h)
  have nil_after : after.flatMap (byteIds P a c) = [] :=
    List.flatMap_eq_nil_iff.mpr fun j' h => others j' fun same => fresh.2 (same ▸ h)
  rw [labels_eq_flatMap_bytes valid, split_at, List.flatMap_append, List.flatMap_cons, nil_before, nil_after,
    List.nil_append, List.append_nil]

section
variable {P : Params} {a : AlarmLatch} {c : LabelCat} {j : Nat} {ids : Nat → LabelId}
  (labelled : ∀ i, i < 8 → profileLabel P a.prof j i = some (c, ids i))
include labelled

/-- A byte of one category's labels shows the labels of its set bits, in ascending bit order (R240). -/
theorem byteIds_of_labelled :
    byteIds P a c j =
      (List.range 8).filterMap fun i => if (a.p[j]?.getD 0).getLsbD i = true then some (ids i) else none := by
  rw [byteIds, byteBits, List.filterMap_map]
  exact List.filterMap_congr fun i hi => shownId_of_label (labelled i (List.mem_range.mp hi))

theorem byteIds_of_one (h : a.p[j]?.getD 0 = 0x01) : byteIds P a c j = [ids 0] := by
  rw [byteIds_of_labelled labelled, h]
  rfl

theorem byteIds_of_all (h : a.p[j]?.getD 0 = 0xFF) : byteIds P a c j = (List.range 8).map ids := by
  rw [byteIds_of_labelled labelled, h]
  rfl
end

/-- Settles O53: the list is the bytes' labels one after another, and the other bytes of the category add none. -/
theorem labelByteShowsItsLabels : Obligations.LabelByteShowsItsLabels := by
  intro P a c j ids valid labelled
  have hj : j < mapSize a.prof := (profileLabel_bounds (labelled 0 (by decide))).1
  refine ⟨fun ⟨one, others⟩ => ?_, fun all => ⟨?_, fun only => ?_⟩⟩
  · rw [← byteIds_of_one labelled one]
    exact labels_of_one_byte valid hj fun j' hne => byteIds_eq_nil fun i id label => others j' i hne ⟨id, label⟩
  · rw [← byteIds_of_all labelled all, labels_eq_flatMap_bytes valid, ← List.flatMap_singleton (byteIds P a c) j]
    exact (List.singleton_sublist.mpr (List.mem_range.mpr hj)).flatMap _
  · rw [← byteIds_of_all labelled all]
    exact labels_of_one_byte valid hj fun j' hne => byteIds_eq_nil fun i id label => absurd (only j' i id label) hne

end Sys2Proof.Machine
end

section
/-! SUPPORT. The host commands NOP, SRST, WRCFG and RDREG with their whole next states (45_host_commands.md R250 to
R257). -/

namespace Sys2Proof.Machine

/-- The frame of R259 around an effect that emits nothing: LAST_EVT is left as the effect has it. -/
theorem exec_of_silent {i : Instr} {s : State} (h : (effect i s.openOutput).events = []) :
    exec i s = .next (effect i s.openOutput) := by
  rw [exec_is_effect, State.closeOutput_of_silent h]

/-- The frame of R259 around an effect that does nothing but emit one event. -/
theorem exec_of_emit {i : Instr} {s : State} {e : Event} (h : effect i s.openOutput = s.openOutput.emit e) :
    exec i s = .next { s with rdata := 0, events := [e], lastEvt := e.code } := by
  rw [exec_is_effect, h, State.closeOutput_emit]
  rfl

/-- Above CATSEL no address can be written (R254). -/
theorem writeConfig_of_above {a : BitVec 8} (h : 0x02 < a.toNat) (v : Half) (s : State) :
    writeConfig a v s = s.emit (.badReg a) := by
  rcases writeConfig_cases a v s with ⟨rfl, _⟩ | ⟨rfl, _⟩ | ⟨rfl, _⟩ | ⟨_, bad⟩
  case inr.inr.inr => exact bad
  all_goals exact absurd h (by decide)

/-- The unmapped addresses (R23). -/
theorem regAt_eq_none {a : BitVec 8} (h : ¬ (a.toNat ≤ 0x02 ∨ (0x08 ≤ a.toNat ∧ a.toNat ≤ 0x0E) ∨
    (0x20 ≤ a.toNat ∧ a.toNat ≤ 0x2F) ∨ (0x40 ≤ a.toNat ∧ a.toNat ≤ 0x5C))) : regAt a = none := by
  rw [not_or, not_or, not_or] at h
  obtain ⟨config, outputs, almout, frame⟩ := h
  rw [regAt, dif_neg almout, dif_neg frame]
  split
  case h_11 => rfl
  all_goals omega

theorem readRegister_of_unmapped {a : BitVec 8} (h : regAt a = none) (P : Params) (s : State) :
    readRegister P a s = (s.setRdata 0).emit (.badReg a) := by
  rw [readRegister, h]

/-- Settles O26: either access is BAD_REG alone, and the frame of R259 writes its code. -/
theorem accessOutsideTheMapEmitsBadReg : Obligations.AccessOutsideTheMapEmitsBadReg := by
  refine fun a s => ⟨fun above v => ?_, fun unmapped => ?_⟩
  · exact exec_of_emit (i := .wrcfg a v) (writeConfig_of_above above v s.openOutput)
  · exact exec_of_emit (i := .rdreg a) (readRegister_of_unmapped (regAt_eq_none unmapped) Config.params s.openOutput)

/-- RDREG at a register's own address (R23, R253): one write of the read data, and nothing else of the state changes. -/
theorem exec_rdreg_regAddr (r : Reg) (s : State) :
    exec (.rdreg (regAddr r)) s = .next { s with rdata := regRead Config.params s r, events := [] } :=
  exec_rdreg_of_mapped (regAt_regAddr r) s

theorem regRead_ctrl (P : Params) (s : State) :
    regRead P s .ctrl = (match s.profile with | .A => 0x0000 | .B => 0x0001) := by
  rw [regRead]
  cases s.profile <;> rfl

theorem regRead_devcnt (P : Params) (s : State) : regRead P s .devcnt = (0 : BitVec 8) ++ s.deviceCount :=
  setWidth_byte_eq_append s.deviceCount

theorem regRead_catsel (P : Params) (s : State) : regRead P s .catsel = (0 : BitVec 12) ++ s.cat :=
  BitVec.setWidth_eq_append (by decide)

theorem regRead_lastlen (P : Params) (s : State) : regRead P s .lastlen =
    (0 : BitVec 7) ++ (match s.frm.prof with | .A => (0 : BitVec 1) | .B => 1) ++ s.frm.len := by
  rw [regRead]
  cases s.frm.prof <;> rfl

theorem regRead_almstat (P : Params) (s : State) : regRead P s .almstat =
    BitVec.ofNat 8 ((List.range 256).countP fun r => (alarmOut P s).getLsbD r) ++ s.alm.dev := by
  rw [regRead, selCount_eq_countP]

/-- Settles O27: one read at the address of each register. -/
theorem rdregReadsTheRegisterMap : Obligations.RdregReadsTheRegisterMap := by
  intro s reads out frameByte
  have read {v : Half} (r : Reg) (value : regRead Config.params s r = v) : reads (regAddr r) v :=
    value ▸ exec_rdreg_regAddr r s
  exact ⟨read .ctrl (regRead_ctrl _ s), read .devcnt (regRead_devcnt _ s), read .catsel (regRead_catsel _ s),
    read .status rfl, read .lastfrm rfl, read .lastlen (regRead_lastlen _ s), read .crcCalc rfl, read .crcRecv rfl,
    read .crcAcc rfl, read .almstat (regRead_almstat _ s), fun k hk => read (.almout ⟨k, hk⟩) rfl,
    fun k hk => read (.frame ⟨k, hk⟩) rfl⟩

/-- Settles O15: NOP's effect is silent, and no other row's word has OP = 0. -/
theorem nopChangesNothing : Obligations.NopChangesNothing := by
  refine ⟨decode_encode .nop, fun s => exec_of_silent (i := .nop) (s := s) rfl, fun w op other => ?_⟩
  have value : w.toNat ≠ 0 := fun h => other (BitVec.eq_of_toNat_eq h)
  have opcode : w.toNat / 2 ^ 28 % 2 ^ 4 = 0 := field_value op
  rw [decode_is_error_by_value]
  omega

/-- SRST's effect is the reset state but for the configuration, the ports and the outputs (R251). -/
theorem softReset_eq (s : State) : softReset s =
    { State.reset with
      profile := s.profile, deviceCount := s.deviceCount, cat := s.cat
      inputs := s.inputs, resetLine := s.resetLine, bus := s.bus, rdata := s.rdata, events := s.events } := by
  rfl

theorem exec_srst (s : State) : exec .srst s = .next (softReset s.openOutput) := exec_of_silent (i := .srst) rfl

/-- A second SRST changes nothing (R251). -/
theorem softReset_idempotent (s : State) : softReset (softReset s.openOutput).openOutput = softReset s.openOutput := by
  simp [softReset_eq]

/-- STATUS after SRST is that of the reset state (R282). -/
theorem statusWord_softReset (s : State) : statusWord (softReset s) = 0x0000 := by
  have same : statusWord (softReset s) = statusWord State.reset := rfl
  rw [same]
  decide

/-- Settles O16: SRST is silent, so its next state is that of its effect. -/
theorem srstResetsTheDatapath : Obligations.SrstResetsTheDatapath := by
  refine ⟨decode_encode .srst, fun s => ⟨softReset s.openOutput, exec_srst s, softReset_eq s.openOutput, ?again, _,
    exec_rdreg_regAddr .status _, statusWord_softReset _⟩⟩
  case again => rw [exec_srst, softReset_idempotent]

/-- R256: CTRL takes bit 0, and the buffer stays only under the same profile. -/
theorem writeCtrl_eq (v : Half) (s : State) : writeCtrl v s =
    { s with
      profile := profileOfBit (v.getLsbD 0)
      buf := if s.profile = profileOfBit (v.getLsbD 0) then s.buf else [] } := by
  rcases writeCtrl_cases v s with ⟨same, h⟩ | ⟨changed, h⟩
  · rw [h, if_pos same.symm, same]
  · rw [h, if_neg (Ne.symm changed)]
    rfl

/-- Settles O25: a write of each configuration register is silent. -/
theorem wrcfgWritesTheConfiguration : Obligations.WrcfgWritesTheConfiguration := by
  refine fun v s => ⟨?ctrl, ?devcnt, ?catsel⟩
  case ctrl =>
    have written : effect (.wrcfg 0x00 v) s.openOutput = _ := writeCtrl_eq v s.openOutput
    rw [exec_of_silent (by rw [written]; rfl), written]
    rfl
  case devcnt =>
    rw [exec_of_silent (i := .wrcfg 0x01 v) rfl, ← BitVec.setWidth_eq_extractLsb' (by decide)]
    rfl
  case catsel =>
    rw [exec_of_silent (i := .wrcfg 0x02 v) rfl, ← BitVec.setWidth_eq_extractLsb' (by decide)]
    rfl

end Sys2Proof.Machine
end

section
/-! The event codes (60_exceptions.md R261). -/

namespace Sys2Proof.Machine

/-- Settles O13: the ten statements are the ten equations of `Event.code`, whatever operands the event carries. -/
theorem eventCodesAreTheTables : Obligations.EventCodesAreTheTables :=
  ⟨fun _ _ _ => rfl, rfl, rfl, fun _ _ => rfl, fun _ => rfl, rfl, rfl, fun _ => rfl, fun _ => rfl, fun _ => rfl⟩

end Sys2Proof.Machine
end

section
/-! The reset input, one equation per level and edge (70_reset_and_hazards.md R280). -/

namespace Sys2Proof.Machine

section
variable (s : State) (rest : List HostInput)

theorem State.setResetLine_of_same {asserted : Bool} (same : s.resetLine = asserted) : s.setResetLine asserted = s :=
  same ▸ rfl

theorem driveReset_asserted : driveReset true rest s = .next ((s.setInputs rest).setResetLine true) := by
  simp only [driveReset, Bool.not_true, Bool.and_false, Bool.false_eq_true, if_false]

theorem driveReset_falling (hr : s.resetLine = true) :
    driveReset false rest s = .next (State.reset.setInputs rest) := by
  simp only [driveReset, hr, Bool.not_false, Bool.and_true, if_true, State.releaseReset, State.setInputs_inputs]

theorem driveReset_still_released (hr : s.resetLine = false) :
    driveReset false rest s = .next (s.setInputs rest) := by
  have same : (s.setInputs rest).setResetLine false = s.setInputs rest := State.setResetLine_of_same _ hr
  simp only [driveReset, hr, Bool.false_and, Bool.false_eq_true, if_false, same]

end

/-- Settles O9: an asserted level is only recorded, a command meanwhile is dropped, and the falling edge resets. -/
theorem resetInputGivesTheResetState : Obligations.ResetInputGivesTheResetState := by
  refine ⟨fun s rest hin => ?asserted, fun s w blk rest hr hin => ?command, fun s rest hr hin => ?released⟩
  case asserted => exact (step_of_reset_level hin).trans (driveReset_asserted s rest)
  case command => exact step_of_command_in_reset hin hr
  case released => exact (step_of_reset_level hin).trans (driveReset_falling s rest hr)

/-- Settles O56: a low level with no reset to release writes the level that already stands. -/
theorem releaseWithoutResetChangesNothing : Obligations.ReleaseWithoutResetChangesNothing :=
  fun s rest hr hin => (step_of_reset_level hin).trans (driveReset_still_released s rest hr)

end Sys2Proof.Machine
end
